-- ==== Sys2Proof/Word.lean ====
section
/-! DEFINITION. The fixed-width words of the data2video frame codec block: the byte (00_scope R11), the 16-bit
dimension field (10_state R40) and the 32-bit register and command word (10_state R31, 30_encoding R120). -/

namespace Sys2Proof

/-- An unsigned 8-bit integer, "the atomic unit of payload and channel encoding" (00_scope R15). -/
abbrev Byte := BitVec 8

/-- A 16-bit register field (10_state R31). -/
abbrev Half := BitVec 16

/-- A 32-bit register, host address or command word (10_state R31, 20_memory R90, 30_encoding R120). -/
abbrev Word := BitVec 32

end Sys2Proof
end

