-- ==== Sys2Proof/Config.lean ====
section
/-! DEFINITION. What is fixed for a block instance: the source's constants (00_scope R7), the parameters that no source
fixes (R8) with their default values, and the one free value (20_memory R81; 93_implementation_defined U1 to U3). -/

namespace Sys2Proof

/-- The three buffer spaces of 20_memory R80. -/
inductive Space where
  | pbuf
  | ebuf
  | fb
  deriving DecidableEq, Repr

/-- Byte order of the 4-byte length field (00_scope R8, 43_fec_codec R240). -/
inductive LenOrder where
  | little
  | big
  deriving DecidableEq, Repr

/-- Median of an even count (00_scope R8, 41_color_codec R164). -/
inductive MedianKind where
  | meanOfMiddle
  | lower
  deriving DecidableEq, Repr

/-- A color triple: "three independent 8-bit channel intensities (R,G,B)" (00_scope R15). -/
structure Rgb where
  r : Byte
  g : Byte
  b : Byte
  deriving DecidableEq, Repr

/-- The parameters of 00_scope R8, in its order. -/
structure Params where
  maxPixels  : Nat
  pbufBytes  : Nat
  ebufBytes  : Nat
  fbBytes    : Nat
  rsPrim     : Half
  rsAlpha    : Byte
  rsFcr      : Nat
  rsMaxNsym  : Nat
  lenOrder   : LenOrder
  medianKind : MedianKind
  stdDdof    : Nat
  bgReset    : Rgb
  deriving DecidableEq, Repr

/-- The block instance: every parameter at its default of 00_scope R8. -/
def Config.params : Params where
  maxPixels  := 2073600
  pbufBytes  := 2073600
  ebufBytes  := 2073600
  fbBytes    := 6220800
  rsPrim     := 0x11D#16
  rsAlpha    := 0x02#8
  rsFcr      := 0
  rsMaxNsym  := 254
  lenOrder   := .little
  medianKind := .meanOfMiddle
  stdDdof    := 0
  bgReset    := ⟨0, 0, 0⟩

/-- `STEP3` (00_scope R7). -/
def Config.step3 : Nat := 36

/-- `STEP2` (00_scope R7). -/
def Config.step2 : Nat := 85

/-- `METADATA_PARITY` (00_scope R7, 43_fec_codec R230). -/
def Config.metadataParity : Nat := 4

/-- `DATA_PARITY_MAX` (00_scope R7, 43_fec_codec R230). -/
def Config.dataParityMax : Nat := 64

/-- `LEN_FIELD_BYTES` (00_scope R7). -/
def Config.lenFieldBytes : Nat := 4

/-- `METADATA_SIZE` (00_scope R7, 43_fec_codec R230). -/
def Config.metadataSize : Nat := 8

/-- `RS_NMAX` (00_scope R9). -/
def Config.rsNmax : Nat := 255

/-- The `ID` register's value (10_state R31, 92_eei_decisions D1). -/
def Config.blockId : Word := 0x44325601#32

/-- FREE VALUE (logs 4, 6, 7): the byte that draw number `draw` gives for offset `off` of space `sp`. It has no body: the
spec calls these bytes "any value" (20_memory R81; 70_reset R341, R350 d), so nothing may be proved of one. -/
opaque Config.freeByte (draw : Nat) (sp : Space) (off : Nat) : Byte

/-- `size(S)` of 20_memory R80. -/
def Params.sizeOf (P : Params) : Space → Nat
  | .pbuf => P.pbufBytes
  | .ebuf => P.ebufBytes
  | .fb   => P.fbBytes

end Sys2Proof
end

