-- ==== Sys2Proof/Syntax.lean ====
section
/-! DEFINITION. The command set (30_encoding R121: one constructor per row of the opcode table; no command has an operand
field, R120, R124) and the events of the block's surroundings: host transactions (20_memory R90), the engine's turn and
the reset input (70_reset R340). -/

namespace Sys2Proof

/-- The commands of 30_encoding R121. Each operand is an implicit register or buffer (R123). -/
inductive Instr where
  | nop
  | gridSetup
  | travReset
  | travNext
  | fbClear
  | quant
  | dequantPix
  | fillBlock
  | dequantBlock
  | rsEnc
  | rsDec
  | envBuild
  | envParse
  | frameEncode
  | frameDecode
  | softReset
  deriving DecidableEq, Repr

/-- Width of a host transaction: `w ∈ {1, 2, 4}` bytes (20_memory R90). -/
inductive Width where
  | w1
  | w2
  | w4
  deriving DecidableEq, Repr

/-- A host transaction (20_memory R90). A width-1 or width-2 write carries its value in the low bits of `value`
(log 14). -/
inductive HostAccess where
  | read  (addr : Word) (width : Width)
  | write (addr : Word) (width : Width) (value : Word)
  deriving DecidableEq, Repr

/-- One entry of the total order of 20_memory R100: a host transaction, the engine's turn, or a hardware reset. -/
inductive Event where
  | access (a : HostAccess)
  | engine
  | hardReset
  deriving DecidableEq, Repr

end Sys2Proof
end

