-- ==== Sys2Proof/WellFormed.lean ====
section
/-! DEFINITION. Well-formedness: of a command word (30_encoding R120, R121, R125) and of a parameter set
(93_implementation_defined P1 to P8). A command has no operand, so the syntax itself holds no ill-formed command. -/

namespace Sys2Proof

/-- The 16 `OP` values of 30_encoding R121. -/
def legalOpcodes : List Byte :=
  [0x00#8, 0x01#8, 0x02#8, 0x03#8, 0x04#8, 0x10#8, 0x11#8, 0x12#8, 0x13#8, 0x20#8, 0x21#8, 0x30#8, 0x31#8, 0x40#8,
   0x41#8, 0xFF#8]

/-- The `OP` field, bits [7:0], is one of 30_encoding R121. -/
def CommandWord.opcodeLegal (w : Word) : Bool := legalOpcodes.contains (w.extractLsb' 0 8)

/-- The `RSV` field, bits [31:8], is 0 (30_encoding R120). -/
def CommandWord.reservedZero (w : Word) : Bool := w.extractLsb' 8 24 == 0

/-- A word that dispatch (30_encoding R122) does not reject. -/
def CommandWord.wf (w : Word) : Bool := CommandWord.opcodeLegal w && CommandWord.reservedZero w

/-- `RS_PRIM` has degree 8 (43_fec_codec R210; 93_implementation_defined P3). -/
def Params.primDegree8 (P : Params) : Bool := decide (256 ≤ P.rsPrim.toNat ∧ P.rsPrim.toNat < 512)

/-- `RS_MAX_NSYM` is at most 254 (93_implementation_defined P4). -/
def Params.maxNsymOk (P : Params) : Bool := decide (P.rsMaxNsym ≤ 254)

/-- `STD_DDOF` is 0 or 1 (93_implementation_defined P7). -/
def Params.ddofOk (P : Params) : Bool := decide (P.stdDdof ≤ 1)

/-- Every buffer holds the largest grid, and `FB` the largest frame (20_memory R80, R86). -/
def Params.buffersFit (P : Params) : Bool :=
  decide (P.maxPixels ≤ P.pbufBytes ∧ P.maxPixels ≤ P.ebufBytes ∧ 3 * P.maxPixels ≤ P.fbBytes)

/-- The windows of 20_memory R90 do not overlap ("No address reaches two windows"), and a grid's block count fits
`GRID_N` (10_state R31). -/
def Params.windowsApart (P : Params) : Bool :=
  decide (P.pbufBytes ≤ 0x10000000 ∧ P.ebufBytes ≤ 0x10000000 ∧ P.fbBytes ≤ 0xD0000000)

/-- A parameter set the spec's rules allow. -/
def Params.wf (P : Params) : Bool :=
  P.primDegree8 && P.maxNsymOk && P.ddofOk && P.buffersFit && P.windowsApart

end Sys2Proof
end

