-- ==== Sys2Proof/Decode.lean ====
section
/-! DEFINITION. Decoding a command word (30_encoding R122) and, after it, encoding a command (R120, R121). -/

namespace Sys2Proof

/-- Why dispatch rejects a word: `ILLEGAL_COMMAND` with detail `OPCODE` or `RESERVED_BITS` (30_encoding R122). -/
inductive DecodeError where
  | opcode
  | reservedBits
  deriving DecidableEq, Repr

/-- The opcode map of 30_encoding R121, row by row. -/
def opcodeMap : List (Byte × Instr) :=
  [(0x00#8, .nop), (0x01#8, .gridSetup), (0x02#8, .travReset), (0x03#8, .travNext), (0x04#8, .fbClear),
   (0x10#8, .quant), (0x11#8, .dequantPix), (0x12#8, .fillBlock), (0x13#8, .dequantBlock),
   (0x20#8, .rsEnc), (0x21#8, .rsDec), (0x30#8, .envBuild), (0x31#8, .envParse),
   (0x40#8, .frameEncode), (0x41#8, .frameDecode), (0xFF#8, .softReset)]

/-- The command of an `OP` value, none where 30_encoding R121 lists none. -/
def decodeOpcode (op : Byte) : Option Instr :=
  (opcodeMap.find? (fun row => row.1 == op)).map Prod.snd

/-- Dispatch of 30_encoding R122: the opcode check comes before the reserved-bit check. -/
def decode (w : Word) : Except DecodeError Instr :=
  match decodeOpcode (w.extractLsb' 0 8) with
  | none => .error .opcode
  | some i => if w.extractLsb' 8 24 = 0 then .ok i else .error .reservedBits

/-- The instruction the decoder reads from an opcode-table word (opcode_table.json numbers a command word's bits as
30_encoding R120 does). A command word is 32 bits, so a number that does not fit is no command word. -/
def decodeTableWord (nbits w : Nat) : Option Instr :=
  if w % 2 ^ nbits < 2 ^ 32 then
    match decode (BitVec.ofNat 32 (w % 2 ^ nbits)) with
    | .ok i => some i
    | .error _ => none
  else none

/-- The `OP` value of each command (30_encoding R121). -/
def Instr.opcode : Instr → Byte
  | .nop          => 0x00#8
  | .gridSetup    => 0x01#8
  | .travReset    => 0x02#8
  | .travNext     => 0x03#8
  | .fbClear      => 0x04#8
  | .quant        => 0x10#8
  | .dequantPix   => 0x11#8
  | .fillBlock    => 0x12#8
  | .dequantBlock => 0x13#8
  | .rsEnc        => 0x20#8
  | .rsDec        => 0x21#8
  | .envBuild     => 0x30#8
  | .envParse     => 0x31#8
  | .frameEncode  => 0x40#8
  | .frameDecode  => 0x41#8
  | .softReset    => 0xFF#8

/-- The command word: `RSV` zero above `OP`, `zext_32(OP)` (30_encoding R120, R126). -/
def encode (i : Instr) : Word := i.opcode.setWidth 32

end Sys2Proof
end

