-- ==== Sys2Proof/Machine/State.lean ====
section
/-! DEFINITION. The machine's state as plain data (10_state R30 to R48, R60; 20_memory R80, R81), why a step could stop, the
errors a command can end with (60_exceptions R300, R301), and the state after a hardware reset (70_reset R340). -/

namespace Sys2Proof.Machine

/-- One buffer's contents: the bytes written since reset, by offset. Canonical form: offsets strictly rising. An unlisted
offset holds no stored byte; a read of it answers the free value of 20_memory R81 (log 4). -/
abbrev Memory := List Host.Cell

/-- Why the machine could stop with a fault. It has no constructor: "every command completes, and every illegal access or
word is refused with a visible status" (93_implementation_defined; log 12). -/
inductive Fault where
  deriving DecidableEq, Repr

/-- Why a step could have no meaning. -/
inductive Refusal where
  /-- Raised by an arm of `exec` that has no meaning yet. Safe: nothing is claimed of the command. No arm raises it. -/
  | notModelled (mnemonic : String)
  deriving DecidableEq, Repr

/-- The errors of 60_exceptions R301, one constructor per row, in the table's order. -/
inductive CmdError where
  | blockDimZero
  | frameDimZero
  | frameTooLarge
  | travDone
  | rectOut
  | inputEmpty
  | noRoom
  | envelopeTooLong
  | frameTooSmall
  | metaCorrupt
  | lengthCorrupt
  | dataCorrupt
  | rsCorrupt
  | badRange
  | badNsym
  | badLength
  | illegalOpcode
  | illegalReserved
  deriving DecidableEq, Repr

/-- The architectural state (10_state R30) and, last, the model's own fields. A register's reserved bits read 0 and ignore
writes (R31), so a field holds the defined bits only. `STATUS.BUSY`, `STATUS.TRAV_DONE`, `RECT_XY0`, `RECT_XY1`, `ID`,
`CFG0` to `CFG2`, `MAX_PIX` and `IRQ` are functions of this state and the parameters. -/
structure State where
  /-- `CTRL.IRQ_EN`. -/
  irqEn : Bool
  /-- `STATUS.DONE`, `ERR`, `OVR`, `BUSERR` (10_state R33). -/
  done : Bool
  err : Bool
  ovr : Bool
  busErr : Bool
  /-- `STATUS.ERRCODE` and `ERRDETAIL`. -/
  errCode : BitVec 4
  errDetail : BitVec 4
  /-- `CMD`: the last accepted command word. -/
  cmd : Word
  frameW : Half
  frameH : Half
  blockW : Half
  blockH : Half
  gridCols : Half
  gridRows : Half
  gridN : Word
  /-- Two's complement (10_state R41). -/
  capacity : Word
  travIdx : Word
  /-- `TRAV_XY.X` and `TRAV_XY.Y`. -/
  travX : Half
  travY : Half
  streamLen : Word
  payloadLen : Word
  envLen : Word
  dataLen : Word
  dataNsym : Byte
  qbyte : Byte
  qrgb : Rgb
  dqRgb : Rgb
  dqByte : Byte
  rsSrc : Word
  rsDst : Word
  rsLen : Word
  rsNsym : Byte
  rsOutlen : Word
  /-- `DEC_NERR[15:0]` and `DEC_NERR[31:16]`. -/
  decNerrData : Half
  decNerrMeta : Half
  bgRgb : Rgb
  /-- The accepted command that has not been performed yet (10_state R60). `BUSY` is `pending ≠ none`. -/
  pending : Option Word
  pbuf : Memory
  ebuf : Memory
  fb : Memory
  /-- MODEL's own (log 1): the events to come, first one first. -/
  schedule : List Event
  /-- MODEL's own (log 8): what the last host read returned. -/
  rdata : Word
  /-- MODEL's own (log 4): the draw that the never-written buffer bytes read from. -/
  epoch : Nat
  /-- MODEL's own (logs 4, 6, 7): the next draw that nothing has used. -/
  draws : Nat
  deriving DecidableEq, Repr

/-- The machine after a hardware reset at power-up (10_state R31, R33, R42; 70_reset R340). -/
def State.reset : State where
  irqEn       := false
  done        := false
  err         := false
  ovr         := false
  busErr      := false
  errCode     := 0
  errDetail   := 0
  cmd         := 0
  frameW      := 1920
  frameH      := 1080
  blockW      := 16
  blockH      := 16
  gridCols    := 0
  gridRows    := 0
  gridN       := 0
  capacity    := 0
  travIdx     := 0
  travX       := 0
  travY       := 0
  streamLen   := 0
  payloadLen  := 0
  envLen      := 0
  dataLen     := 0
  dataNsym    := 0
  qbyte       := 0
  qrgb        := ⟨0, 0, 0⟩
  dqRgb       := ⟨0, 0, 0⟩
  dqByte      := 0
  rsSrc       := 0
  rsDst       := 0
  rsLen       := 0
  rsNsym      := 0
  rsOutlen    := 0
  decNerrData := 0
  decNerrMeta := 0
  bgRgb       := Config.params.bgReset
  pending     := none
  pbuf        := []
  ebuf        := []
  fb          := []
  schedule    := []
  rdata       := 0
  epoch       := 0
  draws       := 1

end Sys2Proof.Machine
end

