-- ==== Sys2Proof/Machine/Flags.lean ====
section
/-! DEFINITION. `STATUS`: its computed bits, its word, its write-one-to-clear action (10_state R33), the codes and details of
the errors (60_exceptions R300, R301), and the interrupt output (R320). -/

namespace Sys2Proof.Machine

/-- `ERRCODE` of an error (60_exceptions R300, R301). -/
def CmdError.code : CmdError → BitVec 4
  | .blockDimZero | .frameDimZero | .frameTooLarge | .travDone | .rectOut => 1
  | .inputEmpty => 2
  | .noRoom | .envelopeTooLong => 3
  | .frameTooSmall | .metaCorrupt | .lengthCorrupt | .dataCorrupt | .rsCorrupt => 4
  | .badRange | .badNsym | .badLength => 5
  | .illegalOpcode | .illegalReserved => 6

/-- `ERRDETAIL` of an error (60_exceptions R301). -/
def CmdError.detail : CmdError → BitVec 4
  | .blockDimZero    => 1
  | .frameDimZero    => 2
  | .frameTooLarge   => 3
  | .travDone        => 4
  | .rectOut         => 5
  | .inputEmpty      => 1
  | .noRoom          => 1
  | .envelopeTooLong => 2
  | .frameTooSmall   => 1
  | .metaCorrupt     => 2
  | .lengthCorrupt   => 3
  | .dataCorrupt     => 4
  | .rsCorrupt       => 5
  | .badRange        => 1
  | .badNsym         => 2
  | .badLength       => 3
  | .illegalOpcode   => 1
  | .illegalReserved => 2

/-- `STATUS.BUSY`: exactly `pending ≠ none` (10_state R60). -/
def State.busy (s : State) : Bool := s.pending.isSome

/-- `STATUS.TRAV_DONE`: 1 if `TRAV_IDX ≥ GRID_N` (10_state R33). -/
def State.travDone (s : State) : Bool := decide (s.gridN.toNat ≤ s.travIdx.toNat)

/-- The `STATUS` word, most significant field first (10_state R33). -/
def State.statusWord (s : State) : Word :=
  0#12 ++ s.errDetail ++ 0#4 ++ s.errCode ++ 0#2 ++ BitVec.ofBool s.travDone ++ BitVec.ofBool s.busErr
    ++ BitVec.ofBool s.ovr ++ BitVec.ofBool s.err ++ BitVec.ofBool s.done ++ BitVec.ofBool s.busy

/-- A host write of `v` to `STATUS`: a 1 clears `DONE` (bit 1), `ERR` with both codes (bit 2), `OVR` (bit 3), `BUSERR`
(bit 4); every other bit is ignored (10_state R33, R34). -/
def State.clearStatus (v : Word) (s : State) : State :=
  { s with
    done      := s.done && !v.getLsbD 1
    err       := s.err && !v.getLsbD 2
    errCode   := if v.getLsbD 2 then 0 else s.errCode
    errDetail := if v.getLsbD 2 then 0 else s.errDetail
    ovr       := s.ovr && !v.getLsbD 3
    busErr    := s.busErr && !v.getLsbD 4 }

/-- The interrupt output: `IRQ = CTRL.IRQ_EN & STATUS.DONE` (60_exceptions R320). -/
def State.irq (s : State) : Bool := s.irqEn && s.done

end Sys2Proof.Machine
end

