-- ==== Sys2Proof/Machine/Ops.lean ====
section
/-! DEFINITION. The shared operations: reading and storing bytes of the three buffers (20_memory R80, R81, R86), accepting
a command (10_state R61) and completing it, with or without error (R62: the block's way of taking an exception; there is
no return operation, 60_exceptions R312). -/

namespace Sys2Proof.Machine

/-! ### One buffer -/

/-- The byte stored at offset `a`, none where nothing has been stored since reset. -/
def Memory.load? (a : Nat) : Memory → Option Byte
  | [] => none
  | c :: m => if c.1 = a then some c.2 else Memory.load? a m

/-- The cells of the byte list `bs` laid out from offset `off` up. -/
def Memory.cells : Nat → List Byte → Memory
  | _, [] => []
  | off, b :: bs => (off, b) :: Memory.cells (off + 1) bs

/-- `m` with the cells at offsets `off` up to (not including) `stop` replaced by `new`. -/
def Memory.splice (off stop : Nat) (new : Memory) : Memory → Memory
  | [] => new
  | c :: m =>
    if c.1 < off then c :: Memory.splice off stop new m
    else if c.1 < stop then Memory.splice off stop new m
    else new ++ c :: m

/-- `MemWrite` on one buffer (00_scope R13): `bs` stored from offset `off` up. -/
def Memory.store (off : Nat) (bs : List Byte) (m : Memory) : Memory :=
  Memory.splice off (off + bs.length) (Memory.cells off bs) m

/-- The canonical form: offsets strictly rising. (An unlisted offset holds no stored byte, so no entry can equal what an
unlisted offset reads as.) -/
abbrev Memory.wf (m : Memory) : Prop := m.Pairwise (fun a b => a.1 < b.1)

/-! ### The buffers in the state -/

/-- The buffer of a space. -/
def State.mem (s : State) : Space → Memory
  | .pbuf => s.pbuf
  | .ebuf => s.ebuf
  | .fb   => s.fb

/-- The state with the buffer of a space replaced. -/
def State.setMem (sp : Space) (m : Memory) (s : State) : State :=
  match sp with
  | .pbuf => { s with pbuf := m }
  | .ebuf => { s with ebuf := m }
  | .fb   => { s with fb := m }

/-- The byte at offset `off` of space `sp`: what was stored there, else the free value of 20_memory R81, fixed per byte
until it is written (log 4). -/
def State.loadByte (s : State) (sp : Space) (off : Nat) : Byte :=
  ((s.mem sp).load? off).getD (Config.freeByte s.epoch sp off)

/-- `MemRead(S, off, n)` (00_scope R13). -/
def State.loadBytes (s : State) (sp : Space) (off n : Nat) : List Byte :=
  (List.range n).map (fun i => s.loadByte sp (off + i))

/-- One `MemWrite(S, off, len bytes, bytes)` (00_scope R13). -/
structure Store where
  space : Space
  off   : Nat
  bytes : List Byte
  deriving DecidableEq, Repr

/-- Whether a store writes the byte at offset `a` of space `sp`. -/
def Store.covers (st : Store) (sp : Space) (a : Nat) : Bool :=
  decide (st.space = sp ∧ st.off ≤ a ∧ a < st.off + st.bytes.length)

/-- The store performed. -/
def State.applyStore (s : State) (st : Store) : State :=
  s.setMem st.space ((s.mem st.space).store st.off st.bytes)

/-- The stores performed in order. -/
def State.applyStores (s : State) (sts : List Store) : State := sts.foldl State.applyStore s

/-- The store whose bytes are free values of draw `draw`: what an abandoned write leaves (70_reset R341; log 6). -/
def Store.redrawn (draw : Nat) (st : Store) : Store :=
  { st with bytes := (List.range st.bytes.length).map (fun i => Config.freeByte draw st.space (st.off + i)) }

/-- The range check of 20_memory R86: `off + n ≤ size(S)`, in unbounded integers. -/
def inSpace (P : Params) (sp : Space) (off n : Nat) : Bool := decide (off + n ≤ P.sizeOf sp)

/-! ### Byte order -/

/-- `le32(v)` (00_scope R12), of `v mod 2^32`. -/
def le32 (v : Nat) : List Byte :=
  [BitVec.ofNat 8 v, BitVec.ofNat 8 (v / 2 ^ 8), BitVec.ofNat 8 (v / 2 ^ 16), BitVec.ofNat 8 (v / 2 ^ 24)]

/-- `unle32`: the number whose bytes, least significant first, are the list (00_scope R12). -/
def unle : List Byte → Nat
  | [] => 0
  | b :: bs => b.toNat + 256 * unle bs

/-! ### Acceptance and completion -/

/-- Command acceptance (10_state R61): what a host write of `w` to `CMD` does while `BUSY = 0`. -/
def State.accept (w : Word) (s : State) : State :=
  { s with cmd := w, done := false, err := false, errCode := 0, errDetail := 0, pending := some w }

/-- Command completion (10_state R62), with the outcome `ok` (none) or an error. An error transfers no control and saves
nothing but its code and detail (60_exceptions R311). -/
def State.complete (outcome : Option CmdError) (s : State) : State :=
  match outcome with
  | none => { s with pending := none, done := true }
  | some e =>
    { s with pending := none, done := true, err := true, errCode := e.code, errDetail := e.detail }

/-- What a command's rule does before completion: the registers it leaves, the buffer bytes it writes, in order, and its
outcome (60_exceptions R310). -/
structure CmdResult where
  regs    : State
  stores  : List Store
  outcome : Option CmdError

/-- `raise Error(CODE, DETAIL)` with nothing written (60_exceptions R310: "the state before the command, plus `STATUS`"). -/
def CmdResult.raise (s : State) (e : CmdError) : CmdResult := ⟨s, [], some e⟩

/-- `complete()` with the given registers and stores. -/
def CmdResult.ok (s : State) (stores : List Store) : CmdResult := ⟨s, stores, none⟩

/-- The command's writes committed and the command completed, as one indivisible step (10_state R60, R62). -/
def CmdResult.finish (r : CmdResult) : State := (r.regs.applyStores r.stores).complete r.outcome

end Sys2Proof.Machine
end

