-- ==== Sys2Proof/Machine/Control.lean ====
section
/-! DEFINITION. The control commands NOP and SOFT_RESET (45_control) and what dispatch does with a word that is no command
(30_encoding R122, R125). -/

namespace Sys2Proof.Machine

/-- `NOP` (45_control R290): no effect but completion. -/
def cmdNop (s : State) : CmdResult := .ok s []

/-- Every register at its reset value, nothing pending (70_reset R340); the buffers and the model's own fields kept. -/
def State.resetRegs (P : Params) (s : State) : State :=
  { State.reset with
    bgRgb    := P.bgReset
    pbuf     := s.pbuf
    ebuf     := s.ebuf
    fb       := s.fb
    schedule := s.schedule
    rdata    := s.rdata
    epoch    := s.epoch
    draws    := s.draws }

/-- `SOFT_RESET` (45_control R291): every register at its reset value, `CMD` the accepted word 0xFF, buffers kept. (That
nothing is pending and `DONE` is 1 afterwards is the completion.) -/
def cmdSoftReset (P : Params) (s : State) : CmdResult := .ok { s.resetRegs P with cmd := 0x000000FF#32 } []

/-- NOP, performed and completed. -/
def execNop (s : State) : Host.Outcome State Fault Refusal := .next (cmdNop s).finish

/-- SOFT_RESET, performed and completed. -/
def execSoftReset (s : State) : Host.Outcome State Fault Refusal := .next (cmdSoftReset Config.params s).finish

/-- The error of a word that dispatch rejects (30_encoding R122, 60_exceptions R301). -/
def decodeCmdError : DecodeError → CmdError
  | .opcode       => .illegalOpcode
  | .reservedBits => .illegalReserved

/-- The completion of a word that dispatch rejects: it changes nothing but `STATUS` (30_encoding R125). -/
def rejectWord (e : DecodeError) (s : State) : State := (CmdResult.raise s (decodeCmdError e)).finish

end Sys2Proof.Machine
end

