-- ==== Sys2Proof/Machine/Operands.lean ====
section
/-! DEFINITION. The implicit operands (30_encoding R123): the block grid (42_frame_geometry R180), a block's rectangle
(R181), the current block (41_color_codec R160), pixels and rectangles of the frame buffer (20_memory R82 to R85). -/

namespace Sys2Proof.Machine

/-- A computed grid: `(cols, rows, N, N − METADATA_SIZE − DATA_PARITY_MAX)` (42_frame_geometry R180). -/
structure Grid where
  cols : Nat
  rows : Nat
  n    : Nat
  cap  : Int
  deriving DecidableEq, Repr

/-- A pixel rectangle with inclusive bounds (42_frame_geometry R181). -/
structure Rect where
  x0 : Nat
  y0 : Nat
  x1 : Nat
  y1 : Nat
  deriving DecidableEq, Repr

/-- `GridCompute()` (42_frame_geometry R180): the checks in its order, then integer division on each axis. -/
def gridCompute (P : Params) (s : State) : Except CmdError Grid :=
  let w := s.frameW.toNat
  let h := s.frameH.toNat
  let bw := s.blockW.toNat
  let bh := s.blockH.toNat
  if bw = 0 ∨ bh = 0 then .error .blockDimZero
  else if w = 0 ∨ h = 0 then .error .frameDimZero
  else if P.maxPixels < w * h then .error .frameTooLarge
  else
    let n := (w / bw) * (h / bh)
    .ok { cols := w / bw, rows := h / bh, n := n, cap := (n : Int) - Config.metadataSize - Config.dataParityMax }

/-- `BlockRect(x, y)` for blocks of `bw` by `bh` pixels (42_frame_geometry R181). -/
def blockRect (bw bh x y : Nat) : Rect where
  x0 := x * bw
  y0 := y * bh
  x1 := (x + 1) * bw - 1
  y1 := (y + 1) * bh - 1

/-- The rectangle of block `i` in row-major order, in a grid of `cols` columns (42_frame_geometry R182). -/
def blockRectAt (s : State) (cols i : Nat) : Rect :=
  blockRect s.blockW.toNat s.blockH.toNat (i % cols) (i / cols)

/-- `CurrentRect()` (41_color_codec R160): the checks in its order against the current dimension registers. -/
def currentRect (P : Params) (s : State) : Except CmdError Rect :=
  let w := s.frameW.toNat
  let h := s.frameH.toNat
  if s.blockW.toNat = 0 ∨ s.blockH.toNat = 0 then .error .blockDimZero
  else if w = 0 ∨ h = 0 then .error .frameDimZero
  else if P.maxPixels < w * h then .error .frameTooLarge
  else if s.gridN.toNat ≤ s.travIdx.toNat then .error .travDone
  else
    let rect := blockRect s.blockW.toNat s.blockH.toNat s.travX.toNat s.travY.toNat
    if w ≤ rect.x1 ∨ h ≤ rect.y1 then .error .rectOut else .ok rect

/-- `FBaddr(px, py, c)` for a frame of `w` pixel columns (20_memory R82). -/
def fbAddr (w px py c : Nat) : Nat := 3 * (py * w + px) + c

/-- `FillRect` (20_memory R83). A row's pixels are consecutive bytes, so a row is one store. The rows are disjoint, so
their order does not matter; the bottom row is stored first. -/
def fillRect (w : Nat) (rect : Rect) (c : Rgb) : List Store :=
  (List.range (rect.y1 + 1 - rect.y0)).reverse.map fun dy =>
    { space := .fb
      off   := fbAddr w rect.x0 (rect.y0 + dy) 0
      bytes := (List.replicate (rect.x1 + 1 - rect.x0) [c.r, c.g, c.b]).flatten }

/-- One channel of `ReadRect` (20_memory R84): rows outer, columns inner. -/
def readChannel (s : State) (rect : Rect) (c : Nat) : List Nat :=
  (List.range (rect.y1 + 1 - rect.y0)).flatMap fun dy =>
    (List.range (rect.x1 + 1 - rect.x0)).map fun dx =>
      (s.loadByte .fb (fbAddr s.frameW.toNat (rect.x0 + dx) (rect.y0 + dy) c)).toNat

/-- `Blank()` (20_memory R85). -/
def blankStores (s : State) : List Store :=
  fillRect s.frameW.toNat ⟨0, 0, s.frameW.toNat - 1, s.frameH.toNat - 1⟩ s.bgRgb

end Sys2Proof.Machine
end

