-- ==== Sys2Proof/Machine/Color.lean ====
section
/-! DEFINITION. The color codec of 41_color_codec: quantizer, dequantizer, robust block estimate, and the commands QUANT,
DEQUANT_PIX, FILL_BLOCK and DEQUANT_BLOCK. -/

namespace Sys2Proof.Machine

/-! ### The codec functions -/

/-- `encode_color(b)`: the level fields `b[7:5]`, `b[4:3]`, `b[2:0]` scaled by their steps (41_color_codec R150). -/
def encodeColor (b : Byte) : Rgb where
  r := BitVec.ofNat 8 ((b.extractLsb' 5 3).toNat * Config.step3)
  g := BitVec.ofNat 8 ((b.extractLsb' 3 2).toNat * Config.step2)
  b := BitVec.ofNat 8 ((b.extractLsb' 0 3).toNat * Config.step3)

/-- `decode_level(v, step, width)`: integer division, then a mask that wraps (41_color_codec R151; 90_conflicts C6). -/
def decodeLevel (v step width : Nat) : Nat := (v / step) &&& (2 ^ width - 1)

/-- The byte whose levels the three channel values decode to, in the layout `RRRGGBBB` (41_color_codec R152, R167). -/
def recompose (r g b : Nat) : Byte :=
  BitVec.ofNat 8 (decodeLevel r Config.step3 3 <<< 5 ||| decodeLevel g Config.step2 2 <<< 3 |||
    decodeLevel b Config.step3 3)

/-- `decode_color((r, g, b))` (41_color_codec R152). -/
def decodeColor (c : Rgb) : Byte := recompose c.r.toNat c.g.toNat c.b.toNat

/-! ### The robust estimate -/

/-- The binary digits of an integer square root, from the digit of weight `2^(k-1)` down; `d` holds the digits found. -/
def isqrtDigits : Nat → Nat → Nat → Nat
  | 0, _, d => d
  | k + 1, z, d => isqrtDigits k z (if (d + 2 ^ k) * (d + 2 ^ k) ≤ z then d + 2 ^ k else d)

/-- `isqrt(z)`: the largest `d` with `d² ≤ z` (41_color_codec R166). -/
def isqrt (z : Nat) : Nat := isqrtDigits (z.log2 / 2 + 1) z 0

/-- `m2`, twice the median of a sorted list (41_color_codec R164, R166). -/
def twiceMedian (kind : MedianKind) (sorted : List Nat) : Nat :=
  let n := sorted.length
  if n % 2 = 1 then 2 * sorted.getD ((n - 1) / 2) 0
  else
    match kind with
    | .meanOfMiddle => sorted.getD (n / 2 - 1) 0 + sorted.getD (n / 2) 0
    | .lower => 2 * sorted.getD (n / 2 - 1) 0

/-- `dm = floor(2·sd)`, from `Q = n·S2 − S1²` and `D = n·(n − STD_DDOF)` (41_color_codec R165, R166). -/
def twiceDeviation (ddof : Nat) (vals : List Nat) : Nat :=
  let n := vals.length
  let q := n * (vals.map (fun v => v * v)).sum - vals.sum * vals.sum
  let d := n * (n - ddof)
  if d = 0 then 0 else isqrt (4 * q / d)

/-- `est(vals) = floor(median + sd)` in integers (41_color_codec R163, R166). -/
def est (P : Params) (vals : List Nat) : Nat :=
  (twiceMedian P.medianKind (vals.insertionSort (· ≤ ·)) + twiceDeviation P.stdDdof vals) / 2

/-- `BlockByte(x0, y0, x1, y1)`: the three channels are independent lanes (41_color_codec R167). -/
def blockByte (P : Params) (s : State) (rect : Rect) : Byte :=
  recompose (est P (readChannel s rect 0)) (est P (readChannel s rect 1)) (est P (readChannel s rect 2))

/-! ### The commands -/

/-- `QUANT` (41_color_codec R155). -/
def cmdQuant (s : State) : CmdResult := .ok { s with qrgb := encodeColor s.qbyte } []

/-- `DEQUANT_PIX` (41_color_codec R156). -/
def cmdDequantPix (s : State) : CmdResult := .ok { s with dqByte := decodeColor s.dqRgb } []

/-- `FILL_BLOCK` (41_color_codec R161). -/
def cmdFillBlock (P : Params) (s : State) : CmdResult :=
  match currentRect P s with
  | .error e => .raise s e
  | .ok rect =>
    .ok { s with qrgb := encodeColor s.qbyte } (fillRect s.frameW.toNat rect (encodeColor s.qbyte))

/-- `DEQUANT_BLOCK` (41_color_codec R162). -/
def cmdDequantBlock (P : Params) (s : State) : CmdResult :=
  match currentRect P s with
  | .error e => .raise s e
  | .ok rect => .ok { s with dqByte := blockByte P s rect } []

/-- QUANT, performed and completed. -/
def execQuant (s : State) : Host.Outcome State Fault Refusal := .next (cmdQuant s).finish

/-- DEQUANT_PIX, performed and completed. -/
def execDequantPix (s : State) : Host.Outcome State Fault Refusal := .next (cmdDequantPix s).finish

/-- FILL_BLOCK, performed and completed. -/
def execFillBlock (s : State) : Host.Outcome State Fault Refusal :=
  .next (cmdFillBlock Config.params s).finish

/-- DEQUANT_BLOCK, performed and completed. -/
def execDequantBlock (s : State) : Host.Outcome State Fault Refusal :=
  .next (cmdDequantBlock Config.params s).finish

end Sys2Proof.Machine
end

