-- ==== Sys2Proof/Machine/ReedSolomon.lean ====
section
/-! DEFINITION. GF(256), the systematic Reed-Solomon code and its bounded-distance decoder (43_fec_codec R210 to R216). A
byte list is a polynomial, its first byte the highest-degree coefficient (00_scope R14). -/

namespace Sys2Proof.Machine

/-! ### The field -/

/-- `a << 1`, with `RS_PRIM` subtracted where bit 8 comes up (43_fec_codec R210). -/
def gfDouble (P : Params) (a : Byte) : Byte :=
  let d : Half := a.setWidth 16 <<< 1
  (if d.getLsbD 8 then d ^^^ P.rsPrim else d).setWidth 8

/-- The loop of `gf_mul` (43_fec_codec R210), `k` rounds of it; `acc` is its `p`. -/
def gfMulLoop (P : Params) : Nat → Byte → Byte → Byte → Byte
  | 0, _, _, acc => acc
  | k + 1, a, b, acc => gfMulLoop P k (gfDouble P a) (b >>> 1) (if b.getLsbD 0 then acc ^^^ a else acc)

/-- `gf_mul(a, b)` (43_fec_codec R210): `b` has 8 bits, so 8 rounds reach `b = 0`. -/
def gfMul (P : Params) (a b : Byte) : Byte := gfMulLoop P 8 a b 0

/-- `x` multiplied by itself `i` times, from 1 up. -/
def gfPow (P : Params) (x : Byte) : Nat → Byte
  | 0 => 1
  | i + 1 => gfMul P (gfPow P x i) x

/-- `α^i` (43_fec_codec R211). -/
def alphaPow (P : Params) (i : Nat) : Byte := gfPow P P.rsAlpha i

/-- The multiplicative inverse of a non-zero element: the byte whose product with it is 1. -/
def gfInv (P : Params) (a : Byte) : Byte :=
  BitVec.ofNat 8 ((List.range 256).findIdx (fun b => gfMul P a (BitVec.ofNat 8 b) == 1))

/-- The sum over the positions two lists share of the products of their elements. -/
def gfDot (P : Params) : List Byte → List Byte → Byte
  | a :: as, b :: bs => gfMul P a b ^^^ gfDot P as bs
  | _, _ => 0

/-! ### The code -/

/-- `g_p`, coefficients highest degree first (43_fec_codec R212). -/
def genPoly (P : Params) : Nat → List Byte
  | 0 => [1]
  | p + 1 =>
    List.zipWith (· ^^^ ·) (genPoly P p ++ [0])
      (0 :: (genPoly P p).map (gfMul P (alphaPow P (P.rsFcr + p))))

/-- `ys` with the elements of `xs` added to its first ones. -/
def addOnto : List Byte → List Byte → List Byte
  | x :: xs, y :: ys => (y ^^^ x) :: addOnto xs ys
  | _, ys => ys

/-- `k` rounds of the division loop of `RSEncode` (43_fec_codec R213): each takes the leading coefficient `c` of what is
left and, where it is not 0, adds `c` times the generator's lower coefficients `g[1..p]` to those behind it. -/
def divideLoop (P : Params) (gTail : List Byte) : Nat → List Byte → List Byte
  | k + 1, c :: buf =>
    divideLoop P gTail k (if c = 0 then buf else addOnto (gTail.map (fun g => gfMul P g c)) buf)
  | _, buf => buf

/-- The remainder of the list's polynomial divided by `g_p`, for a list of at least `p` bytes. -/
def remainder (P : Params) (p : Nat) (buf : List Byte) : List Byte :=
  divideLoop P (genPoly P p).tail (buf.length - p) buf

/-- `RSEncode(m, p)` (43_fec_codec R213). -/
def rsEncode (P : Params) (m : List Byte) (p : Nat) : List Byte :=
  m ++ remainder P p (m ++ List.replicate p 0)

/-- `c ∈ C(len c, p)`: the polynomial is divisible by `g_p` (43_fec_codec R214; log 11). -/
def isCodeword (P : Params) (p : Nat) (c : List Byte) : Bool := (remainder P p c).all (· == 0)

/-- The value of the list's polynomial at `x`, highest-degree coefficient first (00_scope R14). -/
def polyEval (P : Params) (x : Byte) (c : List Byte) : Byte := c.foldl (fun acc b => gfMul P acc x ^^^ b) 0

/-- The syndrome `S_j = c(α^(RS_FCR+j))` (43_fec_codec R214). -/
def syndrome (P : Params) (c : List Byte) (j : Nat) : Byte := polyEval P (alphaPow P (P.rsFcr + j)) c

/-- `d(a, b)`, the Hamming distance of two lists of one length (43_fec_codec R214). -/
def hamming : List Byte → List Byte → Nat
  | a :: as, b :: bs => (if a = b then 0 else 1) + hamming as bs
  | _, _ => 0

/-! ### The decoder (log 10)

43_fec_codec R216 admits any algorithm with its results. This one finds a non-zero polynomial of degree at most `t` that
every error locator is a root of (a kernel vector of the Hankel matrix of the syndromes), takes its roots as the suspect
positions, solves for the error values there, and answers the candidate only if it is a codeword within distance `t`. -/

/-- The first row with a non-zero head, and the other rows. -/
def pickPivot : List (List Byte) → Option (List Byte × List (List Byte))
  | [] => none
  | r :: rs => if r.headD 0 = 0 then (pickPivot rs).map (fun q => (q.1, r :: q.2)) else some (r, rs)

/-- Row `q` less the multiple of the pivot row `r` that clears its head, scaled by the pivot; the head dropped. -/
def eliminateRow (P : Params) (r q : List Byte) : List Byte :=
  List.zipWith (· ^^^ ·) (q.tail.map (gfMul P (r.headD 0))) (r.tail.map (gfMul P (q.headD 0)))

/-- A vector of `n` entries whose product with every row (of `n` entries) is 0; not all zero if there are fewer than `n`
rows. -/
def kernelVec (P : Params) : Nat → List (List Byte) → List Byte
  | 0, _ => []
  | n + 1, rows =>
    match pickPivot rows with
    | none => 1 :: List.replicate n 0
    | some (r, others) =>
      let v := kernelVec P n (others.map (eliminateRow P r))
      gfDot P r.tail v :: v.map (gfMul P (r.headD 0))

/-- Coefficients, lowest degree first, of a non-zero polynomial of degree at most `t` that vanishes at every error
locator if there are at most `t` errors. -/
def locatorPoly (P : Params) (t : Nat) (r : List Byte) : List Byte :=
  let syn := (List.range (2 * t)).map (syndrome P r)
  kernelVec P (t + 1) ((List.range t).map fun i => (List.range (t + 1)).map fun j => syn.getD (i + j) 0)

/-- The locator of position `pos` in a word of `n` bytes: the power of `α` its degree gives. -/
def locator (P : Params) (n pos : Nat) : Byte := alphaPow P (n - 1 - pos)

/-- The positions whose locator is a root of the locator polynomial. -/
def suspects (P : Params) (t : Nat) (r : List Byte) : List Nat :=
  let coeffs := (locatorPoly P t r).reverse
  (List.range r.length).filter (fun pos => polyEval P (locator P r.length pos) coeffs == 0)

/-- The error values at the given positions that explain the first syndromes. -/
def errorValues (P : Params) (r : List Byte) (positions : List Nat) : List Byte :=
  let xs := positions.map (locator P r.length)
  let rows := (List.range positions.length).map fun j =>
    xs.map (fun x => gfPow P x (P.rsFcr + j)) ++ [syndrome P r j]
  let v := kernelVec P (positions.length + 1) rows
  v.dropLast.map (gfMul P (gfInv P (v.getLastD 0)))

/-- The word with the given values added at the given positions. -/
def addErrors (r : List Byte) (positions : List Nat) (values : List Byte) : List Byte :=
  (positions.zip values).foldl (fun c q => c.modify q.1 (· ^^^ q.2)) r

/-- The one candidate for a codeword within distance `t`. -/
def correctionCandidate (P : Params) (t : Nat) (r : List Byte) : List Byte :=
  addErrors r (suspects P t r) (errorValues P r (suspects P t r))

/-- `RSDecode(r, p)` (43_fec_codec R216): the corrected first `n − p` bytes and the number of corrected symbols, none for
`Fail`. -/
def rsDecode (P : Params) (r : List Byte) (p : Nat) : Option (List Byte × Nat) :=
  if isCodeword P p r then some (r.take (r.length - p), 0)
  else if Config.rsNmax < r.length then none
  else
    let c := correctionCandidate P (p / 2) r
    if isCodeword P p c ∧ hamming r c ≤ p / 2 then some (c.take (r.length - p), hamming r c) else none

end Sys2Proof.Machine
end

