-- ==== Sys2Proof/Machine/Fec.lean ====
section
/-! DEFINITION. The direct Reed-Solomon commands RS_ENC and RS_DEC and the envelope framing with its commands ENV_BUILD and
ENV_PARSE (43_fec_codec R220 to R248). -/

namespace Sys2Proof.Machine

/-! ### Direct commands -/

/-- `RS_ENC` (43_fec_codec R220). The input is read whole before any write (92_eei_decisions D34). -/
def cmdRsEnc (P : Params) (s : State) : CmdResult :=
  let k := s.rsLen.toNat
  let p := s.rsNsym.toNat
  if P.rsMaxNsym < p ∨ k < p then .raise s .badNsym
  else if !inSpace P .ebuf s.rsSrc.toNat k then .raise s .badRange
  else if !inSpace P .ebuf s.rsDst.toNat (k + p) then .raise s .badRange
  else
    .ok { s with rsOutlen := BitVec.ofNat 32 (k + p) }
      [⟨.ebuf, s.rsDst.toNat, rsEncode P (s.loadBytes .ebuf s.rsSrc.toNat k) p⟩]

/-- `RS_DEC` (43_fec_codec R221). -/
def cmdRsDec (P : Params) (s : State) : CmdResult :=
  let n := s.rsLen.toNat
  let p := s.rsNsym.toNat
  if P.rsMaxNsym < p ∨ n < 2 * p then .raise s .badNsym
  else if !inSpace P .ebuf s.rsSrc.toNat n then .raise s .badRange
  else if !inSpace P .ebuf s.rsDst.toNat (n - p) then .raise s .badRange
  else
    match rsDecode P (s.loadBytes .ebuf s.rsSrc.toNat n) p with
    | none => .raise s .rsCorrupt
    | some (msg, e) =>
      .ok { s with
            rsOutlen    := BitVec.ofNat 32 (n - p)
            decNerrData := BitVec.ofNat 16 e
            decNerrMeta := 0 }
        [⟨.ebuf, s.rsDst.toNat, msg⟩]

/-! ### Envelope framing -/

/-- `LenBytes(v)` (43_fec_codec R240). -/
def lenBytes (P : Params) (v : Nat) : List Byte :=
  match P.lenOrder with
  | .little => le32 v
  | .big => (le32 v).reverse

/-- `unLenBytes`, the inverse of `LenBytes` on 4 bytes (43_fec_codec R240). -/
def unLenBytes (P : Params) (bs : List Byte) : Nat :=
  match P.lenOrder with
  | .little => unle bs
  | .big => unle bs.reverse

/-- `data_parity_count` bounds the parity by a constant for every grid (43_fec_codec R230, R241 step 1). -/
def requestedParity (k : Nat) : Nat := min k Config.dataParityMax

/-- `(env, L, rp)` of `BuildEnvelope` (43_fec_codec R241). -/
structure Envelope where
  bytes   : List Byte
  dataLen : Nat
  parity  : Nat
  deriving DecidableEq, Repr

/-- `BuildEnvelope(payload, N)` (43_fec_codec R241), with its capacity check last. -/
def buildEnvelope (P : Params) (payload : List Byte) (n : Nat) : Except CmdError Envelope :=
  let rp := requestedParity payload.length
  let dataBlock := rsEncode P payload rp
  let metaBlock := rsEncode P (lenBytes P dataBlock.length) Config.metadataParity
  let env := metaBlock ++ dataBlock
  if n < env.length then .error .envelopeTooLong
  else .ok { bytes := env, dataLen := dataBlock.length, parity := rp }

/-- `(payload, L, symcount, em, ed)` of `ParseEnvelope` (43_fec_codec R245). -/
structure Parsed where
  payload  : List Byte
  dataLen  : Nat
  parity   : Nat
  metaErrs : Nat
  dataErrs : Nat
  deriving DecidableEq, Repr

/-- `ParseEnvelope(raw)` (43_fec_codec R245). -/
def parseEnvelope (P : Params) (raw : List Byte) : Except CmdError Parsed :=
  if raw.length < Config.metadataSize then .error .frameTooSmall
  else
    let region := raw.drop Config.metadataSize
    match rsDecode P (raw.take Config.metadataSize) Config.metadataParity with
    | none => .error .metaCorrupt
    | some (lf, em) =>
      let l := unLenBytes P lf
      if region.length < l then .error .lengthCorrupt
      else
        let symcount := min (l / 2) Config.dataParityMax
        match rsDecode P (region.take l) symcount with
        | none => .error .dataCorrupt
        | some (payload, ed) =>
          .ok { payload := payload, dataLen := l, parity := symcount, metaErrs := em, dataErrs := ed }

/-- The result registers of a parse (43_fec_codec R246, 44_frame_pipelines R265). -/
def State.commitParsed (q : Parsed) (s : State) : State :=
  { s with
    payloadLen  := BitVec.ofNat 32 q.payload.length
    dataLen     := BitVec.ofNat 32 q.dataLen
    dataNsym    := BitVec.ofNat 8 q.parity
    decNerrMeta := BitVec.ofNat 16 q.metaErrs
    decNerrData := BitVec.ofNat 16 q.dataErrs }

/-- `ENV_BUILD` (43_fec_codec R242). -/
def cmdEnvBuild (P : Params) (s : State) : CmdResult :=
  match gridCompute P s with
  | .error e => .raise s e
  | .ok g =>
    let k := s.payloadLen.toNat
    if P.pbufBytes < k then .raise s .badLength
    else if k = 0 then .raise s .inputEmpty
    else
      match buildEnvelope P (s.loadBytes .pbuf 0 k) g.n with
      | .error e => .raise s e
      | .ok env =>
        if !inSpace P .ebuf 0 env.bytes.length then .raise s .badRange
        else
          .ok { s with
                envLen   := BitVec.ofNat 32 env.bytes.length
                dataLen  := BitVec.ofNat 32 env.dataLen
                dataNsym := BitVec.ofNat 8 env.parity }
            [⟨.ebuf, 0, env.bytes⟩]

/-- `ENV_PARSE` (43_fec_codec R246): the raw length is always the whole grid. -/
def cmdEnvParse (P : Params) (s : State) : CmdResult :=
  match gridCompute P s with
  | .error e => .raise s e
  | .ok g =>
    if !inSpace P .ebuf 0 g.n then .raise s .badRange
    else
      match parseEnvelope P (s.loadBytes .ebuf 0 g.n) with
      | .error e => .raise s e
      | .ok q =>
        if !inSpace P .pbuf 0 q.payload.length then .raise s .badRange
        else .ok (s.commitParsed q) [⟨.pbuf, 0, q.payload⟩]

/-- RS_ENC, performed and completed. -/
def execRsEnc (s : State) : Host.Outcome State Fault Refusal := .next (cmdRsEnc Config.params s).finish

/-- RS_DEC, performed and completed. -/
def execRsDec (s : State) : Host.Outcome State Fault Refusal := .next (cmdRsDec Config.params s).finish

/-- ENV_BUILD, performed and completed. -/
def execEnvBuild (s : State) : Host.Outcome State Fault Refusal := .next (cmdEnvBuild Config.params s).finish

/-- ENV_PARSE, performed and completed. -/
def execEnvParse (s : State) : Host.Outcome State Fault Refusal := .next (cmdEnvParse Config.params s).finish

end Sys2Proof.Machine
end

