-- ==== Sys2Proof/Machine/Geometry.lean ====
section
/-! DEFINITION. The traversal state machine and the commands GRID_SETUP, TRAV_RESET, TRAV_NEXT and FB_CLEAR of
42_frame_geometry. -/

namespace Sys2Proof.Machine

/-- `TravSet(i)` (42_frame_geometry R183). -/
def State.travSet (i : Nat) (s : State) : State :=
  { s with
    travIdx := BitVec.ofNat 32 i
    travX   := if i < s.gridN.toNat then BitVec.ofNat 16 (i % s.gridCols.toNat) else 0
    travY   := if i < s.gridN.toNat then BitVec.ofNat 16 (i / s.gridCols.toNat) else s.gridRows }

/-- The grid registers committed (42_frame_geometry R184; 10_state R41). -/
def State.commitGrid (g : Grid) (s : State) : State :=
  { s with
    gridCols := BitVec.ofNat 16 g.cols
    gridRows := BitVec.ofNat 16 g.rows
    gridN    := BitVec.ofNat 32 g.n
    capacity := BitVec.ofInt 32 g.cap }

/-- `GRID_SETUP` (42_frame_geometry R184). -/
def cmdGridSetup (P : Params) (s : State) : CmdResult :=
  match gridCompute P s with
  | .error e => .raise s e
  | .ok g => .ok ((s.commitGrid g).travSet 0) []

/-- `TRAV_RESET` (42_frame_geometry R185). -/
def cmdTravReset (s : State) : CmdResult := .ok (s.travSet 0) []

/-- `TRAV_NEXT` (42_frame_geometry R186). -/
def cmdTravNext (s : State) : CmdResult :=
  if s.travIdx.toNat < s.gridN.toNat then .ok (s.travSet (s.travIdx.toNat + 1)) [] else .ok s []

/-- `FB_CLEAR` (42_frame_geometry R188). -/
def cmdFbClear (P : Params) (s : State) : CmdResult :=
  if s.frameW.toNat = 0 ∨ s.frameH.toNat = 0 then .raise s .frameDimZero
  else if P.maxPixels < s.frameW.toNat * s.frameH.toNat then .raise s .frameTooLarge
  else .ok s (blankStores s)

/-- GRID_SETUP, performed and completed. -/
def execGridSetup (s : State) : Host.Outcome State Fault Refusal :=
  .next (cmdGridSetup Config.params s).finish

/-- TRAV_RESET, performed and completed. -/
def execTravReset (s : State) : Host.Outcome State Fault Refusal := .next (cmdTravReset s).finish

/-- TRAV_NEXT, performed and completed. -/
def execTravNext (s : State) : Host.Outcome State Fault Refusal := .next (cmdTravNext s).finish

/-- FB_CLEAR, performed and completed. -/
def execFbClear (s : State) : Host.Outcome State Fault Refusal := .next (cmdFbClear Config.params s).finish

end Sys2Proof.Machine
end

