-- ==== Sys2Proof/Machine/Pipeline.lean ====
section
/-! DEFINITION. The encode and decode pipelines of 44_frame_pipelines and their commands FRAME_ENCODE and FRAME_DECODE. -/

namespace Sys2Proof.Machine

/-- The stores of the fill loop from envelope index `i` on: byte `i` into block `i` (44_frame_pipelines R261). -/
def renderFrom (s : State) (cols : Nat) : Nat → List Byte → List Store
  | _, [] => []
  | i, b :: bs =>
    fillRect s.frameW.toNat (blockRectAt s cols i) (encodeColor b) ++ renderFrom s cols (i + 1) bs

/-- `Render(env, cols)` (44_frame_pipelines R261): the blank frame, then the fill loop. -/
def renderStores (s : State) (cols : Nat) (env : List Byte) : List Store :=
  blankStores s ++ renderFrom s cols 0 env

/-- `Scan(cols, N)` (44_frame_pipelines R264): the full grid, no early stop. -/
def scan (P : Params) (s : State) (cols n : Nat) : List Byte :=
  (List.range n).map (fun i => blockByte P s (blockRectAt s cols i))

/-- `FRAME_ENCODE` (44_frame_pipelines R260, R262). Every check comes before any write. -/
def cmdFrameEncode (P : Params) (s : State) : CmdResult :=
  match gridCompute P s with
  | .error e => .raise s e
  | .ok g =>
    let len := s.streamLen.toNat
    if P.pbufBytes < len then .raise s .badLength
    else if len = 0 then .raise s .inputEmpty
    else if g.cap ≤ 0 then .raise s .noRoom
    else
      let k := min len g.cap.toNat
      match buildEnvelope P (s.loadBytes .pbuf 0 k) g.n with
      | .error e => .raise s e
      | .ok env =>
        .ok
          ({ s.commitGrid g with
              payloadLen := BitVec.ofNat 32 k
              envLen     := BitVec.ofNat 32 env.bytes.length
              dataLen    := BitVec.ofNat 32 env.dataLen
              dataNsym   := BitVec.ofNat 8 env.parity }.travSet env.bytes.length)
          (renderStores s g.cols env.bytes ++ [⟨.ebuf, 0, env.bytes⟩])

/-- `FRAME_DECODE` (44_frame_pipelines R265). The scan commit (`EBUF[0:N]`, grid and traversal) is kept even if the parse
fails (60_exceptions R310). -/
def cmdFrameDecode (P : Params) (s : State) : CmdResult :=
  match gridCompute P s with
  | .error e => .raise s e
  | .ok g =>
    if !inSpace P .ebuf 0 g.n then .raise s .badRange
    else
      let raw := scan P s g.cols g.n
      let scanned := (s.commitGrid g).travSet g.n
      match parseEnvelope P raw with
      | .error e => ⟨scanned, [⟨.ebuf, 0, raw⟩], some e⟩
      | .ok q => .ok (scanned.commitParsed q) [⟨.ebuf, 0, raw⟩, ⟨.pbuf, 0, q.payload⟩]

/-- FRAME_ENCODE, performed and completed. -/
def execFrameEncode (s : State) : Host.Outcome State Fault Refusal :=
  .next (cmdFrameEncode Config.params s).finish

/-- FRAME_DECODE, performed and completed. -/
def execFrameDecode (s : State) : Host.Outcome State Fault Refusal :=
  .next (cmdFrameDecode Config.params s).finish

end Sys2Proof.Machine
end

