-- ==== Sys2Proof/Machine/Dispatch.lean ====
section
/-! DEFINITION. The meaning of each command (30_encoding R121, R122), one arm per constructor. -/

namespace Sys2Proof.Machine

/-- The command's rule performed and the command completed (10_state R60). -/
def exec (i : Instr) (s : State) : Host.Outcome State Fault Refusal :=
  match i with
  | .nop => Sys2Proof.Machine.execNop s
  | .gridSetup => Sys2Proof.Machine.execGridSetup s
  | .travReset => Sys2Proof.Machine.execTravReset s
  | .travNext => Sys2Proof.Machine.execTravNext s
  | .fbClear => Sys2Proof.Machine.execFbClear s
  | .quant => Sys2Proof.Machine.execQuant s
  | .dequantPix => Sys2Proof.Machine.execDequantPix s
  | .fillBlock => Sys2Proof.Machine.execFillBlock s
  | .dequantBlock => Sys2Proof.Machine.execDequantBlock s
  | .rsEnc => Sys2Proof.Machine.execRsEnc s
  | .rsDec => Sys2Proof.Machine.execRsDec s
  | .envBuild => Sys2Proof.Machine.execEnvBuild s
  | .envParse => Sys2Proof.Machine.execEnvParse s
  | .frameEncode => Sys2Proof.Machine.execFrameEncode s
  | .frameDecode => Sys2Proof.Machine.execFrameDecode s
  | .softReset => Sys2Proof.Machine.execSoftReset s

end Sys2Proof.Machine
end

