-- ==== Sys2Proof/Machine/HostPort.lean ====
section
/-! DEFINITION. The host port: the register file (10_state R31, R34, R44), the address map and legal accesses (20_memory R90
to R93), reads and writes with the busy hazards (70_reset R350), and the reset input (70_reset R340, R341). -/

namespace Sys2Proof.Machine

/-! ### The register file -/

/-- The registers of 10_state R31, in its order. -/
inductive Reg where
  | id | ctrl | status | cmd
  | frameW | frameH | blockW | blockH
  | gridCols | gridRows | gridN | capacity
  | travIdx | travXy | rectXy0 | rectXy1
  | streamLen | payloadLen | envLen | dataLen | dataNsym
  | qbyte | qrgb | dqRgb | dqByte
  | rsSrc | rsDst | rsLen | rsNsym | rsOutlen | decNerr
  | bgRgb | cfg0 | cfg1 | cfg2 | maxPix
  deriving DecidableEq, Repr

/-- The register map: offset by offset, 4 bytes apart (10_state R31). -/
def regMap : List (Nat × Reg) :=
  [(0x000, .id), (0x004, .ctrl), (0x008, .status), (0x00C, .cmd),
   (0x010, .frameW), (0x014, .frameH), (0x018, .blockW), (0x01C, .blockH),
   (0x020, .gridCols), (0x024, .gridRows), (0x028, .gridN), (0x02C, .capacity),
   (0x030, .travIdx), (0x034, .travXy), (0x038, .rectXy0), (0x03C, .rectXy1),
   (0x040, .streamLen), (0x044, .payloadLen), (0x048, .envLen), (0x04C, .dataLen), (0x050, .dataNsym),
   (0x054, .qbyte), (0x058, .qrgb), (0x05C, .dqRgb), (0x060, .dqByte),
   (0x064, .rsSrc), (0x068, .rsDst), (0x06C, .rsLen), (0x070, .rsNsym), (0x074, .rsOutlen), (0x078, .decNerr),
   (0x07C, .bgRgb), (0x080, .cfg0), (0x084, .cfg1), (0x088, .cfg2), (0x08C, .maxPix)]

/-- The register at an offset of the register window, none at a reserved offset (10_state R31). -/
def regAt (off : Nat) : Option Reg := (regMap.find? (fun row => row.1 == off)).map Prod.snd

/-- A color in a register: R in [7:0], G in [15:8], B in [23:16], [31:24] reserved (10_state R46). -/
def packRgb (c : Rgb) : Word := 0#8 ++ c.b ++ c.g ++ c.r

/-- The color in the defined fields of a written word (10_state R34, R46). -/
def unpackRgb (v : Word) : Rgb := ⟨v.extractLsb' 0 8, v.extractLsb' 8 8, v.extractLsb' 16 8⟩

/-- A coordinate reduced modulo 2^16 (10_state R44). -/
def coord (z : Int) : Half := BitVec.ofInt 16 z

/-- `RECT_XY0` (10_state R44). -/
def State.rectXy0 (s : State) : Word :=
  coord ((s.travY.toNat : Int) * s.blockH.toNat) ++ coord ((s.travX.toNat : Int) * s.blockW.toNat)

/-- `RECT_XY1` (10_state R44). -/
def State.rectXy1 (s : State) : Word :=
  coord (((s.travY.toNat : Int) + 1) * s.blockH.toNat - 1) ++ coord (((s.travX.toNat : Int) + 1) * s.blockW.toNat - 1)

/-- The value a register reads as, reserved bits 0 (10_state R31; 20_memory R91). -/
def readReg (P : Params) (s : State) : Reg → Word
  | .id         => Config.blockId
  | .ctrl       => (BitVec.ofBool s.irqEn).setWidth 32
  | .status     => s.statusWord
  | .cmd        => s.cmd
  | .frameW     => s.frameW.setWidth 32
  | .frameH     => s.frameH.setWidth 32
  | .blockW     => s.blockW.setWidth 32
  | .blockH     => s.blockH.setWidth 32
  | .gridCols   => s.gridCols.setWidth 32
  | .gridRows   => s.gridRows.setWidth 32
  | .gridN      => s.gridN
  | .capacity   => s.capacity
  | .travIdx    => s.travIdx
  | .travXy     => s.travY ++ s.travX
  | .rectXy0    => s.rectXy0
  | .rectXy1    => s.rectXy1
  | .streamLen  => s.streamLen
  | .payloadLen => s.payloadLen
  | .envLen     => s.envLen
  | .dataLen    => s.dataLen
  | .dataNsym   => s.dataNsym.setWidth 32
  | .qbyte      => s.qbyte.setWidth 32
  | .qrgb       => packRgb s.qrgb
  | .dqRgb      => packRgb s.dqRgb
  | .dqByte     => s.dqByte.setWidth 32
  | .rsSrc      => s.rsSrc
  | .rsDst      => s.rsDst
  | .rsLen      => s.rsLen
  | .rsNsym     => s.rsNsym.setWidth 32
  | .rsOutlen   => s.rsOutlen
  | .decNerr    => s.decNerrMeta ++ s.decNerrData
  | .bgRgb      => packRgb s.bgRgb
  | .cfg0       =>
    BitVec.ofNat 8 Config.lenFieldBytes ++ BitVec.ofNat 8 Config.metadataSize ++
      BitVec.ofNat 8 Config.dataParityMax ++ BitVec.ofNat 8 Config.metadataParity
  | .cfg1       => BitVec.ofNat 8 P.rsFcr ++ P.rsAlpha ++ P.rsPrim
  | .cfg2       =>
    0#16 ++ BitVec.ofNat 8 P.rsMaxNsym ++ 0#5 ++ BitVec.ofBool (P.lenOrder == .big) ++
      BitVec.ofNat 1 P.stdDdof ++ BitVec.ofBool (P.medianKind == .lower)
  | .maxPix     => BitVec.ofNat 32 P.maxPixels

/-- The `RW` registers of 10_state R31 other than `CTRL`: those the busy hazard protects (70_reset R350 b). -/
def Reg.isOperand : Reg → Bool
  | .frameW | .frameH | .blockW | .blockH | .streamLen | .payloadLen | .qbyte | .dqRgb
  | .rsSrc | .rsDst | .rsLen | .rsNsym | .bgRgb => true
  | _ => false

/-- A write to a RW register: the defined fields take the value, reserved bits are ignored (10_state R34, R40). A register
that is not RW is unchanged. -/
def writeOperand (r : Reg) (v : Word) (s : State) : State :=
  match r with
  | .frameW     => { s with frameW := v.setWidth 16 }
  | .frameH     => { s with frameH := v.setWidth 16 }
  | .blockW     => { s with blockW := v.setWidth 16 }
  | .blockH     => { s with blockH := v.setWidth 16 }
  | .streamLen  => { s with streamLen := v }
  | .payloadLen => { s with payloadLen := v }
  | .qbyte      => { s with qbyte := v.setWidth 8 }
  | .dqRgb      => { s with dqRgb := unpackRgb v }
  | .rsSrc      => { s with rsSrc := v }
  | .rsDst      => { s with rsDst := v }
  | .rsLen      => { s with rsLen := v }
  | .rsNsym     => { s with rsNsym := v.setWidth 8 }
  | .bgRgb      => { s with bgRgb := unpackRgb v }
  | _           => s

/-- A legal register write (10_state R34) with the busy hazard (70_reset R350 a, b, f): while `BUSY`, `CMD` and the RW
registers other than `CTRL` are not written and `OVR` is set; `CTRL` and `STATUS` act as ever; a write to a read-only
register is ignored. -/
def writeReg (r : Reg) (v : Word) (s : State) : State :=
  match r with
  | .ctrl   => { s with irqEn := v.getLsbD 0 }
  | .status => s.clearStatus v
  | .cmd    => if s.busy then { s with ovr := true } else s.accept v
  | r =>
    if r.isOperand then (if s.busy then { s with ovr := true } else writeOperand r v s)
    else s

/-! ### The address map -/

/-- What a legal access reaches: an offset of the register window, or of a buffer. -/
inductive Target where
  | reg (off : Nat)
  | buf (sp : Space) (off : Nat)
  deriving DecidableEq, Repr

/-- The number of bytes of a width (20_memory R90). -/
def widthBytes : Width → Nat
  | .w1 => 1
  | .w2 => 2
  | .w4 => 4

/-- The base address of a buffer's window (20_memory R90). -/
def windowBase : Space → Nat
  | .pbuf => 0x10000000
  | .ebuf => 0x20000000
  | .fb   => 0x30000000

/-- Whether an access of width `w` at address `a` lies wholly inside the window of `sp`, with a width and alignment that
the window lists (20_memory R90, R92, R93). -/
def inWindow (P : Params) (sp : Space) (a : Nat) (w : Width) : Bool :=
  decide (windowBase sp ≤ a ∧ a + widthBytes w ≤ windowBase sp + P.sizeOf sp) &&
    (match w with
     | .w1 => true
     | .w2 => false
     | .w4 => a % 4 == 0)

/-- What an access reaches, none where it is illegal (20_memory R90, R93). -/
def target (P : Params) (addr : Word) (w : Width) : Option Target :=
  let a := addr.toNat
  if a < 0x1000 then (if w = .w4 ∧ a % 4 = 0 then some (.reg a) else none)
  else if inWindow P .pbuf a w then some (.buf .pbuf (a - windowBase .pbuf))
  else if inWindow P .ebuf a w then some (.buf .ebuf (a - windowBase .ebuf))
  else if inWindow P .fb a w then some (.buf .fb (a - windowBase .fb))
  else none

/-- The bytes of a value written with a width, least significant first (20_memory R92). -/
def valueBytes (v : Word) (w : Width) : List Byte := (le32 v.toNat).take (widthBytes w)

/-- The word that bytes make, least significant first (20_memory R92). -/
def wordOfBytes (bs : List Byte) : Word := BitVec.ofNat 32 (unle bs)

/-! ### Transactions -/

/-- A host read (20_memory R91 to R93; 70_reset R350 d, e). Only `rdata` takes what it returns; an illegal read returns 0
and sets `BUSERR`; a buffer read while `BUSY` returns a fresh free value (log 7). -/
def hostRead (P : Params) (addr : Word) (w : Width) (s : State) : State :=
  match target P addr w with
  | none => { s with busErr := true, rdata := 0 }
  | some (.reg off) =>
    match regAt off with
    | some r => { s with rdata := readReg P s r }
    | none => { s with rdata := 0 }
  | some (.buf sp off) =>
    if s.busy then
      { s with
        rdata := wordOfBytes ((List.range (widthBytes w)).map (fun i => Config.freeByte s.draws sp (off + i)))
        draws := s.draws + 1 }
    else { s with rdata := wordOfBytes (s.loadBytes sp off (widthBytes w)) }

/-- A host write (20_memory R91 to R93; 10_state R34; 70_reset R350 a to c, f). An illegal write sets `BUSERR` and nothing
else, busy or not (60_exceptions R322). -/
def hostWrite (P : Params) (addr : Word) (w : Width) (v : Word) (s : State) : State :=
  match target P addr w with
  | none => { s with busErr := true }
  | some (.reg off) =>
    match regAt off with
    | some r => writeReg r v s
    | none => s
  | some (.buf sp off) =>
    if s.busy then { s with ovr := true } else s.applyStore ⟨sp, off, valueBytes v w⟩

/-- One host transaction (20_memory R90, R96). -/
def hostAccess (P : Params) (a : HostAccess) (s : State) : State :=
  match a with
  | .read addr w => hostRead P addr w s
  | .write addr w v => hostWrite P addr w v s

/-! ### The reset input -/

/-- What a command would do before its completion, for every command. -/
def commandResult (P : Params) (i : Instr) (s : State) : CmdResult :=
  match i with
  | .nop          => cmdNop s
  | .gridSetup    => cmdGridSetup P s
  | .travReset    => cmdTravReset s
  | .travNext     => cmdTravNext s
  | .fbClear      => cmdFbClear P s
  | .quant        => cmdQuant s
  | .dequantPix   => cmdDequantPix s
  | .fillBlock    => cmdFillBlock P s
  | .dequantBlock => cmdDequantBlock P s
  | .rsEnc        => cmdRsEnc P s
  | .rsDec        => cmdRsDec P s
  | .envBuild     => cmdEnvBuild P s
  | .envParse     => cmdEnvParse P s
  | .frameEncode  => cmdFrameEncode P s
  | .frameDecode  => cmdFrameDecode P s
  | .softReset    => cmdSoftReset P s

/-- The buffer part of the pending command's write set: the ranges its step would store to (70_reset R341; log 6). A word
that dispatch rejects has none. -/
def pendingStores (P : Params) (s : State) : List Store :=
  match s.pending with
  | none => []
  | some w =>
    match decode w with
    | .ok i => (commandResult P i s).stores
    | .error _ => []

/-- The reset input asserted (70_reset R340, R341; log 5). Idle: every buffer byte becomes unspecified, so nothing stays
listed and the unlisted bytes read from a fresh draw. Busy: the pending command is abandoned, every byte of its write set
takes a fresh free value and every other byte keeps its value. -/
def hardReset (P : Params) (s : State) : State :=
  if s.busy then
    { (s.applyStores ((pendingStores P s).map (Store.redrawn s.draws))).resetRegs P with draws := s.draws + 1 }
  else
    { s.resetRegs P with pbuf := [], ebuf := [], fb := [], epoch := s.draws, draws := s.draws + 1 }

end Sys2Proof.Machine
end

