-- ==== Sys2Proof/Machine/Step.lean ====
section
/-! DEFINITION. One step of the machine: the next event of the total order of 20_memory R100. -/

namespace Sys2Proof.Machine

/-- The engine's turn (10_state R60): it has a step exactly when a command is pending, and then performs and completes it.
With nothing pending it is idle and keeps all state (60_exceptions R335; log 2). -/
def engineTurn (s : State) : Host.Outcome State Fault Refusal :=
  match s.pending with
  | none => .next s
  | some w =>
    match decode w with
    | .ok i => exec i s
    | .error e => .next (rejectWord e s)

/-- One step: the first event of the schedule (log 1), or the engine's turn where the schedule is used up. -/
def step (s : State) : Host.Outcome State Fault Refusal :=
  match s.schedule with
  | [] => engineTurn s
  | .engine :: es => engineTurn { s with schedule := es }
  | .access a :: es => .next (hostAccess Config.params a { s with schedule := es })
  | .hardReset :: es => .next (hardReset Config.params { s with schedule := es })

/-- The state in which the very next step runs the command word `w`: the word accepted as a host write to `CMD` accepts it
(10_state R61; log 3). Where events are scheduled, the engine's turn comes before them. -/
def State.withFetchWord (s : State) (nbits w : Nat) : State :=
  { s.accept (BitVec.ofNat 32 (w % 2 ^ nbits)) with
    schedule :=
      match s.schedule with
      | [] => []
      | e :: es => .engine :: e :: es }

end Sys2Proof.Machine
end

