-- ==== Sys2Proof/Safety.lean ====
section
/-! DEFINITION. The terms that claims about runs use: a completed and a failed command (10_state R62, 60_exceptions R310),
a command issued several times, the reset values of the register file (10_state R31), and the invariant that every event
and every command keeps. -/

namespace Sys2Proof.Machine

/-- The registers of `s` after a completion without error (10_state R62). -/
def State.completed (s : State) : State := { s with pending := none, done := true }

/-- The state after a command that ends in an error and commits nothing: "the state before the command, plus `STATUS`"
(60_exceptions R310). -/
def State.failed (code detail : BitVec 4) (s : State) : State :=
  { s with pending := none, done := true, err := true, errCode := code, errDetail := detail }

/-- The command `i` performed `k` times. -/
def execTimes (i : Instr) : Nat → State → Host.Outcome State Fault Refusal
  | 0, s => .next s
  | k + 1, s =>
    match exec i s with
    | .next t => execTimes i k t
    | .fault r => .fault r
    | .refused r => .refused r

/-- What each register reads as after a hardware reset (10_state R31, R33; 70_reset R340). The two rectangle registers are
computed (R44) from position (0, 0) and the 16 by 16 block. -/
def resetValues : List (Reg × Word) :=
  [(.id, 0x44325601#32), (.ctrl, 0#32), (.status, 0x00000020#32), (.cmd, 0#32),
   (.frameW, 1920#32), (.frameH, 1080#32), (.blockW, 16#32), (.blockH, 16#32),
   (.gridCols, 0#32), (.gridRows, 0#32), (.gridN, 0#32), (.capacity, 0#32),
   (.travIdx, 0#32), (.travXy, 0#32), (.rectXy0, 0#32), (.rectXy1, 0x000F000F#32),
   (.streamLen, 0#32), (.payloadLen, 0#32), (.envLen, 0#32), (.dataLen, 0#32), (.dataNsym, 0#32),
   (.qbyte, 0#32), (.qrgb, 0#32), (.dqRgb, 0#32), (.dqByte, 0#32),
   (.rsSrc, 0#32), (.rsDst, 0#32), (.rsLen, 0#32), (.rsNsym, 0#32), (.rsOutlen, 0#32), (.decNerr, 0#32),
   (.bgRgb, 0#32), (.cfg0, 0x04084004#32), (.cfg1, 0x0002011D#32), (.cfg2, 0x0000FE00#32), (.maxPix, 0x001FA400#32)]

/-- The errors of 60_exceptions R301, in the table's order. -/
def allErrors : List CmdError :=
  [.blockDimZero, .frameDimZero, .frameTooLarge, .travDone, .rectOut, .inputEmpty, .noRoom, .envelopeTooLong,
   .frameTooSmall, .metaCorrupt, .lengthCorrupt, .dataCorrupt, .rsCorrupt, .badRange, .badNsym, .badLength,
   .illegalOpcode, .illegalReserved]

/-- A channel of a color by its number in the pixel layout: 0 for R, 1 for G, 2 for B (20_memory R82). -/
def rgbChannel (c : Rgb) : Nat → Byte
  | 0 => c.r
  | 1 => c.g
  | _ => c.b

/-- The legal accesses, as the address map of 20_memory R90 lists them with the default sizes of 00_scope R8: an aligned
width-4 access of the register window, or a width-1 or aligned width-4 access wholly inside a buffer window. -/
abbrev legalAccess (a : Nat) (w : Width) : Prop :=
  (a < 0x1000 ∧ w = .w4 ∧ a % 4 = 0) ∨
  ((w = .w1 ∨ (w = .w4 ∧ a % 4 = 0)) ∧
    ((0x10000000 ≤ a ∧ a + widthBytes w ≤ 0x10000000 + 2073600) ∨
     (0x20000000 ≤ a ∧ a + widthBytes w ≤ 0x20000000 + 2073600) ∨
     (0x30000000 ≤ a ∧ a + widthBytes w ≤ 0x30000000 + 6220800)))

/-- A pixel of the current block of `s`: column and row between the bounds of 42_frame_geometry R181. -/
abbrev State.inCurrentBlock (s : State) (px py : Nat) : Prop :=
  s.travX.toNat * s.blockW.toNat ≤ px ∧ px < (s.travX.toNat + 1) * s.blockW.toNat ∧
  s.travY.toNat * s.blockH.toNat ≤ py ∧ py < (s.travY.toNat + 1) * s.blockH.toNat

/-- The current block passes every check of 41_color_codec R160. -/
abbrev State.blockUsable (s : State) : Prop :=
  s.blockW.toNat ≠ 0 ∧ s.blockH.toNat ≠ 0 ∧ s.frameW.toNat ≠ 0 ∧ s.frameH.toNat ≠ 0 ∧
  s.frameW.toNat * s.frameH.toNat ≤ 2073600 ∧ s.travIdx.toNat < s.gridN.toNat ∧
  (s.travX.toNat + 1) * s.blockW.toNat ≤ s.frameW.toNat ∧ (s.travY.toNat + 1) * s.blockH.toNat ≤ s.frameH.toNat

/-- The dimension registers pass every check of 42_frame_geometry R180. -/
abbrev State.dimsUsable (s : State) : Prop :=
  s.blockW.toNat ≠ 0 ∧ s.blockH.toNat ≠ 0 ∧ s.frameW.toNat ≠ 0 ∧ s.frameH.toNat ≠ 0 ∧
  s.frameW.toNat * s.frameH.toNat ≤ 2073600

/-- `cols`, `rows` and `N` of the grid that the dimension registers give (42_frame_geometry R180). -/
def State.dimCols (s : State) : Nat := s.frameW.toNat / s.blockW.toNat
def State.dimRows (s : State) : Nat := s.frameH.toNat / s.blockH.toNat
def State.dimN (s : State) : Nat := s.dimCols * s.dimRows

/-- The envelope of a payload, the metadata block then the data block, with the default parameters (43_fec_codec R241). -/
def envelopeOf (payload : List Byte) : List Byte :=
  rsEncode Config.params (le32 (payload.length + min payload.length 64)) 4 ++
    rsEncode Config.params payload (min payload.length 64)

/-- The values of one channel of the current block, rows outer, columns inner (20_memory R84). -/
def State.blockChannel (s : State) (c : Nat) : List Nat :=
  (List.range s.blockH.toNat).flatMap fun dy => (List.range s.blockW.toNat).map fun dx =>
    (s.loadByte .fb (fbAddr s.frameW.toNat (s.travX.toNat * s.blockW.toNat + dx)
      (s.travY.toNat * s.blockH.toNat + dy) c)).toNat

/-! ### The invariant -/

/-- A buffer is in canonical form and lists offsets inside its space only (20_memory R80, R86). -/
abbrev Memory.ok (size : Nat) (m : Memory) : Prop := m.wf ∧ ∀ c ∈ m, c.1 < size

/-- The three buffers of `s`. -/
abbrev State.BuffersOk (s : State) : Prop :=
  s.pbuf.ok Config.params.pbufBytes ∧ s.ebuf.ok Config.params.ebufBytes ∧ s.fb.ok Config.params.fbBytes

/-- `GRID_N = GRID_COLS·GRID_ROWS`, and `CAPACITY = N − 72` in two's complement once a grid is committed; before that all
four are 0 (10_state R41). -/
abbrev State.GridOk (s : State) : Prop :=
  s.gridN.toNat = s.gridCols.toNat * s.gridRows.toNat ∧
  (s.capacity.toInt = (s.gridN.toNat : Int) - 72 ∨ (s.capacity = 0 ∧ s.gridCols = 0 ∧ s.gridRows = 0))

/-- The traversal position: inside the grid `TRAV_IDX = Y·GRID_COLS + X` with `X < GRID_COLS`; otherwise the end position
`(0, GRID_ROWS)` at index `GRID_N` (10_state R42). -/
abbrev State.TravOk (s : State) : Prop :=
  if s.travIdx.toNat < s.gridN.toNat then
    s.travIdx.toNat = s.travY.toNat * s.gridCols.toNat + s.travX.toNat ∧ s.travX.toNat < s.gridCols.toNat
  else s.travIdx = s.gridN ∧ s.travX = 0 ∧ s.travY = s.gridRows

/-- `STATUS` holds no record without `ERR`, and with it a code and detail of 60_exceptions R301; while a command is pending
`DONE` and `ERR` are 0 (70_reset R350 f) and `CMD` reads the pending word (10_state R61). -/
abbrev State.StatusOk (s : State) : Prop :=
  (s.err = false → s.errCode = 0 ∧ s.errDetail = 0) ∧
  (s.err = true → ∃ e ∈ allErrors, s.errCode = e.code ∧ s.errDetail = e.detail) ∧
  (s.busy = true → s.done = false ∧ s.err = false ∧ s.pending = some s.cmd)

/-- Every draw that a buffer byte reads from has been made (the model's own counters, log 4). -/
abbrev State.DrawsOk (s : State) : Prop := s.epoch < s.draws

/-- What holds after reset and after every step. -/
abbrev State.Inv (s : State) : Prop :=
  s.BuffersOk ∧ s.GridOk ∧ s.TravOk ∧ s.StatusOk ∧ s.DrawsOk

end Sys2Proof.Machine
end

