-- ==== Sys2Proof/Certificates/Slice0/Obligations.lean ====
section
/-! DEFINITION. The statements for the provers, in the order: encoding and step, every command, the codec's mathematics, the
host port, the whole machine. Registers of `t` that a statement does not list are those of `s` (`{ s with … }`); a byte of a
buffer is read with `loadByte`. -/

open Sys2Proof Sys2Proof.Machine

/-! ### Encoding and step -/

/-- A word decodes to a command exactly when it is that command's encoding (30_encoding R120 to R122). -/
def Obligations.DecodeAgreesWithEncode : Prop :=
  ∀ (w : Word) (i : Instr), decode w = .ok i ↔ w = encode i

/-- Words of the opcode map, one of each family, decode to their commands, and three words that are no command are
rejected by name (30_encoding R121, R122). -/
def Obligations.OpcodeMapWordsDecode : Prop :=
  decode 0x00000000#32 = .ok .nop ∧ decode 0x00000001#32 = .ok .gridSetup ∧ decode 0x00000012#32 = .ok .fillBlock ∧
  decode 0x00000021#32 = .ok .rsDec ∧ decode 0x00000030#32 = .ok .envBuild ∧ decode 0x00000041#32 = .ok .frameDecode ∧
  decode 0x000000FF#32 = .ok .softReset ∧ decode 0x00000005#32 = .error .opcode ∧
  decode 0x00000100#32 = .error .reservedBits ∧ decode 0x00000105#32 = .error .opcode

/-- Dispatch (30_encoding R122): an unknown opcode first, then reserved bits, then the command's rule; whether the engine's
turn is scheduled or the schedule is used up. -/
def Obligations.DispatchOfPendingWord : Prop :=
  ∀ (s : State) (w : Word), s.schedule = [] ∨ s.schedule.head? = some .engine → s.pending = some w →
    let u := { s with schedule := s.schedule.tail }
    (w.extractLsb' 0 8 ∉ legalOpcodes → step s = .next (u.failed 6 1)) ∧
    (w.extractLsb' 0 8 ∈ legalOpcodes → w.extractLsb' 8 24 ≠ 0 → step s = .next (u.failed 6 2)) ∧
    (∀ i, w.extractLsb' 0 8 = i.opcode → w.extractLsb' 8 24 = 0 → step s = exec i u)

/-- A step runs the decoded command: exactly `exec`, whether the engine's turn is scheduled or the schedule is used up. With
nothing pending the engine's turn changes nothing (10_state R60, 60_exceptions R335); that the machine then answers a next
state rather than none is the model's choice, log 2. -/
def Obligations.StepRunsDecodedCommand : Prop :=
  ∀ s : State,
    (∀ w i, s.pending = some w → decode w = .ok i →
      (s.schedule = [] → step s = exec i s) ∧
      (∀ es, s.schedule = .engine :: es → step s = exec i { s with schedule := es })) ∧
    (s.pending = none →
      (s.schedule = [] → step s = .next s) ∧
      (∀ es, s.schedule = .engine :: es → step s = .next { s with schedule := es }))

/-- Every command completes: nothing stays pending, `DONE` is set, and the error record is kept, cleared (SOFT_RESET) or
one of 60_exceptions R301 (10_state R62). -/
def Obligations.EveryCommandCompletes : Prop :=
  ∀ (i : Instr) (s : State), ∃ t, exec i s = .next t ∧ t.pending = none ∧ t.done = true ∧
    ((t.err = true ∧ ∃ e ∈ allErrors, t.errCode = e.code ∧ t.errDetail = e.detail) ∨
     (t.err = s.err ∧ t.errCode = s.errCode ∧ t.errDetail = s.errDetail) ∨
     (i = .softReset ∧ t.err = false ∧ t.errCode = 0 ∧ t.errDetail = 0))

/-! ### Control commands -/

/-- NOP (45_control R290). -/
def Obligations.NopOnlyCompletes : Prop :=
  encode .nop = 0x00000000#32 ∧ ∀ s : State, exec .nop s = .next s.completed

/-- SOFT_RESET (45_control R291): every register reads its reset value, but for `CMD` and `STATUS`; the buffers are kept. -/
def Obligations.SoftResetRestoresRegisters : Prop :=
  encode .softReset = 0x000000FF#32 ∧
  ∀ s : State, ∃ t, exec .softReset s = .next t ∧
    (∀ x ∈ resetValues, x.1 ≠ .cmd → x.1 ≠ .status → readReg Config.params t x.1 = x.2) ∧
    readReg Config.params t .cmd = 0x000000FF#32 ∧ readReg Config.params t .status = 0x00000022#32 ∧
    t.pending = none ∧ t.irq = false ∧
    t.schedule = s.schedule ∧ t.rdata = s.rdata ∧ t.epoch = s.epoch ∧ t.draws = s.draws ∧
    (∀ sp a, t.loadByte sp a = s.loadByte sp a)

/-! ### Geometry and traversal commands -/

/-- The checks of `GridCompute()` (42_frame_geometry R180), in its order, in the five commands that call it, and the grid it
answers when they pass. -/
def Obligations.GridComputeChecks : Prop :=
  ∀ s : State,
    (∀ i ∈ [Instr.gridSetup, .envBuild, .envParse, .frameEncode, .frameDecode],
      (s.blockW = 0 ∨ s.blockH = 0 → exec i s = .next (s.failed 1 1)) ∧
      (s.blockW ≠ 0 → s.blockH ≠ 0 → s.frameW = 0 ∨ s.frameH = 0 → exec i s = .next (s.failed 1 2)) ∧
      (s.blockW ≠ 0 → s.blockH ≠ 0 → s.frameW ≠ 0 → s.frameH ≠ 0 → 2073600 < s.frameW.toNat * s.frameH.toNat →
        exec i s = .next (s.failed 1 3))) ∧
    (s.dimsUsable →
      gridCompute Config.params s = .ok ⟨s.dimCols, s.dimRows, s.dimN, (s.dimN : Int) - 8 - 64⟩)

/-- GRID_SETUP (42_frame_geometry R184): the grid registers take the grid's exact values, the traversal restarts. -/
def Obligations.GridSetupCommitsGrid : Prop :=
  encode .gridSetup = 0x00000001#32 ∧
  ∀ s : State,
    (s.dimsUsable → ∃ t, exec .gridSetup s = .next t ∧
      t = { s.completed with
            gridCols := t.gridCols, gridRows := t.gridRows, gridN := t.gridN, capacity := t.capacity,
            travIdx := 0, travX := 0, travY := if s.dimN = 0 then t.gridRows else 0 } ∧
      t.gridCols.toNat = s.dimCols ∧ t.gridRows.toNat = s.dimRows ∧ t.gridN.toNat = s.dimN ∧
      t.capacity.toInt = (s.dimN : Int) - 72 ∧ (t.travDone = true ↔ s.dimN = 0)) ∧
    (∀ e, gridCompute Config.params s = .error e → exec .gridSetup s = .next (s.failed e.code e.detail))

/-- TRAV_RESET (42_frame_geometry R185). -/
def Obligations.TravResetRestarts : Prop :=
  encode .travReset = 0x00000002#32 ∧
  ∀ s : State, exec .travReset s =
    .next { s.completed with travIdx := 0, travX := 0, travY := if s.gridN = 0 then s.gridRows else 0 }

/-- TRAV_NEXT (42_frame_geometry R183, R186). -/
def Obligations.TravNextAdvances : Prop :=
  encode .travNext = 0x00000003#32 ∧
  ∀ s : State,
    (s.travIdx.toNat < s.gridN.toNat → exec .travNext s =
      .next { s.completed with
        travIdx := s.travIdx + 1
        travX := if s.travIdx.toNat + 1 < s.gridN.toNat then
          BitVec.ofNat 16 ((s.travIdx.toNat + 1) % s.gridCols.toNat) else 0
        travY := if s.travIdx.toNat + 1 < s.gridN.toNat then
          BitVec.ofNat 16 ((s.travIdx.toNat + 1) / s.gridCols.toNat) else s.gridRows }) ∧
    (s.gridN.toNat ≤ s.travIdx.toNat → exec .travNext s = .next s.completed)

/-- In a state that keeps the grid and traversal invariants, TRAV_NEXT inside the grid goes one column on, and from the last
column to column 0 of the next row, the end position included (the spec's own inference, 42_frame_geometry R187). -/
def Obligations.TravNextWalksRowMajor : Prop :=
  ∀ s : State, s.GridOk → s.TravOk → s.travIdx.toNat < s.gridN.toNat →
    exec .travNext s =
      .next { s.completed with
        travIdx := s.travIdx + 1
        travX := if s.travX.toNat + 1 = s.gridCols.toNat then 0 else s.travX + 1
        travY := if s.travX.toNat + 1 = s.gridCols.toNat then s.travY + 1 else s.travY }

/-- After GRID_SETUP, `k` TRAV_NEXT commands stand at block `(k mod cols, k div cols)`, and `N` of them, no fewer, at the
end (the spec's own inference, 42_frame_geometry R187: "exactly `N` TRAV_NEXT commands reach `END`"). -/
def Obligations.TraversalVisitsEveryBlock : Prop :=
  ∀ s : State, s.dimsUsable → ∃ t, exec .gridSetup s = .next t ∧
    ∀ k ≤ s.dimN, ∃ u, execTimes .travNext k t = .next u ∧ u.travIdx.toNat = k ∧
      (k < s.dimN → u.travX.toNat = k % s.dimCols ∧ u.travY.toNat = k / s.dimCols ∧ u.travDone = false) ∧
      (k = s.dimN → u.travX.toNat = 0 ∧ u.travY.toNat = s.dimRows ∧ u.travDone = true)

/-- FB_CLEAR (42_frame_geometry R188): every pixel of the frame takes the background color; nothing else is written. -/
def Obligations.FbClearFillsFrame : Prop :=
  encode .fbClear = 0x00000004#32 ∧
  ∀ s : State,
    (s.frameW = 0 ∨ s.frameH = 0 → exec .fbClear s = .next (s.failed 1 2)) ∧
    (s.frameW ≠ 0 → s.frameH ≠ 0 → 2073600 < s.frameW.toNat * s.frameH.toNat →
      exec .fbClear s = .next (s.failed 1 3)) ∧
    (s.frameW ≠ 0 → s.frameH ≠ 0 → s.frameW.toNat * s.frameH.toNat ≤ 2073600 →
      ∃ t, exec .fbClear s = .next t ∧ t = { s.completed with fb := t.fb } ∧
        ∀ sp a, t.loadByte sp a =
          if sp = .fb ∧ a < 3 * (s.frameW.toNat * s.frameH.toNat) then rgbChannel s.bgRgb (a % 3)
          else s.loadByte sp a)

/-! ### Color commands -/

/-- QUANT (41_color_codec R155): the three level fields scaled by 36, 85 and 36. -/
def Obligations.QuantScalesLevels : Prop :=
  encode .quant = 0x00000010#32 ∧
  ∀ s : State, ∃ t, exec .quant s = .next t ∧ t = { s.completed with qrgb := t.qrgb } ∧
    t.qrgb.r.toNat = 36 * (s.qbyte.toNat / 32) ∧ t.qrgb.g.toNat = 85 * (s.qbyte.toNat / 8 % 4) ∧
    t.qrgb.b.toNat = 36 * (s.qbyte.toNat % 8) ∧
    (readReg Config.params t .qrgb).toNat =
      65536 * t.qrgb.b.toNat + 256 * t.qrgb.g.toNat + t.qrgb.r.toNat

/-- DEQUANT_PIX (41_color_codec R156). -/
def Obligations.DequantPixDividesLevels : Prop :=
  encode .dequantPix = 0x00000011#32 ∧
  ∀ s : State, ∃ t, exec .dequantPix s = .next t ∧ t = { s.completed with dqByte := t.dqByte } ∧
    t.dqByte.toNat = 32 * (s.dqRgb.r.toNat / 36) + 8 * (s.dqRgb.g.toNat / 85) + s.dqRgb.b.toNat / 36

/-- Noiseless round trip (the spec's own inference, 41_color_codec R154): QUANT, its color handed to DEQUANT_PIX, gives the
byte back. -/
def Obligations.QuantThenDequantRestoresByte : Prop :=
  (∀ b : Byte, decodeColor (encodeColor b) = b) ∧
  ∀ s : State, ∃ t u, exec .quant s = .next t ∧ exec .dequantPix { t with dqRgb := t.qrgb } = .next u ∧
    u.dqByte = s.qbyte

/-- `CurrentRect()` (41_color_codec R160): its five checks in order, in both commands that use it, and the rectangle. -/
def Obligations.CurrentBlockChecks : Prop :=
  ∀ s : State,
    (∀ i ∈ [Instr.fillBlock, .dequantBlock],
      (s.blockW = 0 ∨ s.blockH = 0 → exec i s = .next (s.failed 1 1)) ∧
      (s.blockW ≠ 0 → s.blockH ≠ 0 → s.frameW = 0 ∨ s.frameH = 0 → exec i s = .next (s.failed 1 2)) ∧
      (s.blockW ≠ 0 → s.blockH ≠ 0 → s.frameW ≠ 0 → s.frameH ≠ 0 → 2073600 < s.frameW.toNat * s.frameH.toNat →
        exec i s = .next (s.failed 1 3)) ∧
      (s.dimsUsable → s.gridN.toNat ≤ s.travIdx.toNat → exec i s = .next (s.failed 1 4)) ∧
      (s.dimsUsable → s.travIdx.toNat < s.gridN.toNat →
        s.frameW.toNat < (s.travX.toNat + 1) * s.blockW.toNat ∨
          s.frameH.toNat < (s.travY.toNat + 1) * s.blockH.toNat →
        exec i s = .next (s.failed 1 5))) ∧
    (s.blockUsable → currentRect Config.params s =
      .ok ⟨s.travX.toNat * s.blockW.toNat, s.travY.toNat * s.blockH.toNat,
        (s.travX.toNat + 1) * s.blockW.toNat - 1, (s.travY.toNat + 1) * s.blockH.toNat - 1⟩)

/-- FILL_BLOCK (41_color_codec R161): the pixels of the current block take the byte's color; every other byte, of the frame,
past it and of the other buffers, is unchanged. -/
def Obligations.FillBlockRendersByte : Prop :=
  encode .fillBlock = 0x00000012#32 ∧
  ∀ s : State,
    (s.blockUsable → ∃ t, exec .fillBlock s = .next t ∧
      t = { s.completed with fb := t.fb, qrgb := encodeColor s.qbyte } ∧
      (∀ px py c, px < s.frameW.toNat → py < s.frameH.toNat → c < 3 →
        t.loadByte .fb (fbAddr s.frameW.toNat px py c) =
          if s.inCurrentBlock px py then rgbChannel (encodeColor s.qbyte) c
          else s.loadByte .fb (fbAddr s.frameW.toNat px py c)) ∧
      (∀ sp a, sp ≠ .fb ∨ 3 * (s.frameW.toNat * s.frameH.toNat) ≤ a → t.loadByte sp a = s.loadByte sp a)) ∧
    (∀ e, currentRect Config.params s = .error e → exec .fillBlock s = .next (s.failed e.code e.detail))

/-- DEQUANT_BLOCK (41_color_codec R162, R167): the byte of the three channels' estimates. No buffer is written. -/
def Obligations.DequantBlockRecoversByte : Prop :=
  encode .dequantBlock = 0x00000013#32 ∧
  ∀ s : State,
    (s.blockUsable → ∃ t, exec .dequantBlock s = .next t ∧ t = { s.completed with dqByte := t.dqByte } ∧
      t.dqByte.toNat = 32 * (est Config.params (s.blockChannel 0) / 36 % 8) +
        8 * (est Config.params (s.blockChannel 1) / 85 % 4) + est Config.params (s.blockChannel 2) / 36 % 8) ∧
    (∀ e, currentRect Config.params s = .error e → exec .dequantBlock s = .next (s.failed e.code e.detail))

/-- A noiseless block decodes to its byte (the spec's own inference, 41_color_codec R168). -/
def Obligations.NoiselessBlockDecodes : Prop :=
  ∀ (s : State) (b : Byte), s.blockUsable →
    (∀ px py c, s.inCurrentBlock px py → c < 3 →
      s.loadByte .fb (fbAddr s.frameW.toNat px py c) = rgbChannel (encodeColor b) c) →
    exec .dequantBlock s = .next { s.completed with dqByte := b }

/-- The integer estimate is the exact floor of the real median plus the real population standard deviation
(41_color_codec R163 to R166). -/
def Obligations.EstimateIsFloorOfMedianPlusDeviation : Prop :=
  ∀ vals sorted : List Nat, vals ≠ [] → sorted.Perm vals → sorted.Pairwise (· ≤ ·) →
    let n := vals.length
    let mean : ℝ := (vals.sum : ℝ) / n
    let median : ℝ :=
      if n % 2 = 1 then (sorted.getD ((n - 1) / 2) 0 : ℝ)
      else ((sorted.getD (n / 2 - 1) 0 : ℝ) + (sorted.getD (n / 2) 0 : ℝ)) / 2
    let sd : ℝ := Real.sqrt ((vals.map (fun v => ((v : ℝ) - mean) ^ 2)).sum / n)
    (est Config.params vals : ℤ) = ⌊median + sd⌋

/-! ### The field and the code -/

/-- GF(256) is a field (43_fec_codec R210): the product is commutative, associative, distributes over XOR, has the unit 1,
and every non-zero element has an inverse. -/
def Obligations.GfMulIsFieldProduct : Prop :=
  (∀ a b, gfMul Config.params a b = gfMul Config.params b a) ∧
  (∀ a b c, gfMul Config.params (gfMul Config.params a b) c = gfMul Config.params a (gfMul Config.params b c)) ∧
  (∀ a b c, gfMul Config.params a (b ^^^ c) = gfMul Config.params a b ^^^ gfMul Config.params a c) ∧
  (∀ a, gfMul Config.params a 1 = a) ∧
  (∀ a, a ≠ 0 → gfMul Config.params a (gfInv Config.params a) = 1)

/-- The powers of `α` (43_fec_codec R210, R211): the recurrence; order 255 and all non-zero bytes, which R211 marks as
general knowledge (93_implementation_defined G2); and the first 17 of them, the spec's own inference from R210. -/
def Obligations.AlphaHasOrder255 : Prop :=
  alphaPow Config.params 0 = 1 ∧
  (∀ i, alphaPow Config.params (i + 1) = gfMul Config.params (alphaPow Config.params i) 0x02#8) ∧
  (∀ i, alphaPow Config.params i = alphaPow Config.params (i % 255)) ∧
  (∀ i j, i < 255 → j < 255 → alphaPow Config.params i = alphaPow Config.params j → i = j) ∧
  (∀ x : Byte, x ≠ 0 ↔ ∃ i < 255, alphaPow Config.params i = x) ∧
  (List.range 17).map (fun i => (alphaPow Config.params i).toNat) =
    [1, 2, 4, 8, 16, 32, 64, 128, 29, 58, 116, 232, 205, 135, 19, 38, 76]

/-- The generator polynomial is monic of degree `p` and vanishes at its `p` roots `α^0` to `α^(p−1)` (43_fec_codec R212). -/
def Obligations.GeneratorHasItsRoots : Prop :=
  ∀ p : Nat, (genPoly Config.params p).length = p + 1 ∧ (genPoly Config.params p).head? = some 1 ∧
    ∀ j < p, polyEval Config.params (alphaPow Config.params j) (genPoly Config.params p) = 0

/-- Encoding is systematic, of length `k + p`, and gives a codeword, for every message and parity count and every parameter
set (43_fec_codec R213). That it is a codeword is the spec's own inference in R214. -/
def Obligations.RsEncodeGivesCodeword : Prop :=
  ∀ (P : Params) (m : List Byte) (p : Nat),
    (rsEncode P m p).length = m.length + p ∧ (rsEncode P m p).take m.length = m ∧
    isCodeword P p (rsEncode P m p) = true

/-- Divisibility by `g_p`, the test the model makes (log 11), is the vanishing of the `p` syndromes: an equivalence that
43_fec_codec R214 marks as general knowledge (93_implementation_defined G4). -/
def Obligations.CodewordIffSyndromesZero : Prop :=
  ∀ (p : Nat) (c : List Byte), p ≤ 255 → p ≤ c.length →
    (isCodeword Config.params p c = true ↔ ∀ j < p, syndrome Config.params c j = 0)

/-- The minimum distance (43_fec_codec R215, marked there as general knowledge: 93_implementation_defined G3, G5). Up to 255
bytes it is `p + 1`: two distinct codewords differ in at least so many positions and, where `p < n`, some two in exactly so
many. From 256 bytes on, for `1 ≤ p ≤ 255`, it is 2. -/
def Obligations.CodeMinimumDistance : Prop :=
  (∀ (p : Nat) (a b : List Byte), a.length = b.length → p ≤ a.length → a.length ≤ 255 →
    isCodeword Config.params p a = true → isCodeword Config.params p b = true → a ≠ b →
    p + 1 ≤ hamming a b) ∧
  (∀ p n : Nat, p < n → n ≤ 255 → ∃ a b : List Byte, a.length = n ∧ b.length = n ∧
    isCodeword Config.params p a = true ∧ isCodeword Config.params p b = true ∧ hamming a b = p + 1) ∧
  (∀ (p : Nat) (a b : List Byte), a.length = b.length → 1 ≤ p → p ≤ 255 → 256 ≤ a.length →
    isCodeword Config.params p a = true → isCodeword Config.params p b = true → a ≠ b → 2 ≤ hamming a b) ∧
  (∀ p n : Nat, 1 ≤ p → p ≤ 255 → 256 ≤ n → ∃ a b : List Byte, a.length = n ∧ b.length = n ∧
    isCodeword Config.params p a = true ∧ isCodeword Config.params p b = true ∧ hamming a b = 2)

/-- `RSDecode` is exactly the bounded-distance decoder of 43_fec_codec R216: a codeword decodes as it is; a word of at most
255 bytes with a codeword within `p div 2` decodes to it; anything else fails. -/
def Obligations.RsDecodeIsBoundedDistance : Prop :=
  ∀ (p : Nat) (r : List Byte), p ≤ r.length →
    (isCodeword Config.params p r = true → rsDecode Config.params r p = some (r.take (r.length - p), 0)) ∧
    (isCodeword Config.params p r = false → r.length ≤ 255 → ∀ c : List Byte, c.length = r.length →
      isCodeword Config.params p c = true → hamming r c ≤ p / 2 →
      rsDecode Config.params r p = some (c.take (r.length - p), hamming r c)) ∧
    (isCodeword Config.params p r = false →
      (255 < r.length ∨ ∀ c : List Byte, c.length = r.length → isCodeword Config.params p c = true →
        p / 2 < hamming r c) →
      rsDecode Config.params r p = none)

/-- Round trip of the code at any length (the spec's own inference, 43_fec_codec R217 a). -/
def Obligations.RsRoundTrip : Prop :=
  ∀ (P : Params) (m : List Byte) (p : Nat), rsDecode P (rsEncode P m p) p = some (m, 0)

/-- Correction (the spec's own inference, 43_fec_codec R217 b): up to `p div 2` changed bytes of a codeword of at most 255
bytes are corrected and counted. -/
def Obligations.RsCorrectsErrors : Prop :=
  ∀ (m r : List Byte) (p : Nat), m.length + p ≤ 255 → r.length = m.length + p →
    hamming r (rsEncode Config.params m p) ≤ p / 2 →
    rsDecode Config.params r p = some (m, hamming r (rsEncode Config.params m p))

/-! ### Reed-Solomon and envelope commands -/

/-- RS_ENC (43_fec_codec R220): the checks in order, and the codeword stored at `RS_DST`. -/
def Obligations.RsEncStoresCodeword : Prop :=
  encode .rsEnc = 0x00000020#32 ∧
  ∀ s : State,
    let k := s.rsLen.toNat
    let p := s.rsNsym.toNat
    (254 < p ∨ k < p → exec .rsEnc s = .next (s.failed 5 2)) ∧
    (p ≤ 254 → p ≤ k → 2073600 < s.rsSrc.toNat + k ∨ 2073600 < s.rsDst.toNat + k + p →
      exec .rsEnc s = .next (s.failed 5 1)) ∧
    (p ≤ 254 → p ≤ k → s.rsSrc.toNat + k ≤ 2073600 → s.rsDst.toNat + k + p ≤ 2073600 →
      ∃ t, exec .rsEnc s = .next t ∧
        t = { s.completed with ebuf := t.ebuf, rsOutlen := BitVec.ofNat 32 (k + p) } ∧ t.rsOutlen.toNat = k + p ∧
        ∀ sp a, t.loadByte sp a =
          if sp = .ebuf ∧ s.rsDst.toNat ≤ a ∧ a < s.rsDst.toNat + (k + p) then
            (rsEncode Config.params (s.loadBytes .ebuf s.rsSrc.toNat k) p).getD (a - s.rsDst.toNat) 0
          else s.loadByte sp a)

/-- RS_DEC (43_fec_codec R221): the checks in order, a failed decode, and the message stored at `RS_DST`. -/
def Obligations.RsDecStoresMessage : Prop :=
  encode .rsDec = 0x00000021#32 ∧
  ∀ s : State,
    let n := s.rsLen.toNat
    let p := s.rsNsym.toNat
    let r := s.loadBytes .ebuf s.rsSrc.toNat n
    (254 < p ∨ n < 2 * p → exec .rsDec s = .next (s.failed 5 2)) ∧
    (p ≤ 254 → 2 * p ≤ n → 2073600 < s.rsSrc.toNat + n ∨ 2073600 < s.rsDst.toNat + (n - p) →
      exec .rsDec s = .next (s.failed 5 1)) ∧
    (p ≤ 254 → 2 * p ≤ n → s.rsSrc.toNat + n ≤ 2073600 → s.rsDst.toNat + (n - p) ≤ 2073600 →
      (rsDecode Config.params r p = none → exec .rsDec s = .next (s.failed 4 5)) ∧
      (∀ msg e, rsDecode Config.params r p = some (msg, e) → ∃ t, exec .rsDec s = .next t ∧
        t = { s.completed with
              ebuf := t.ebuf, rsOutlen := BitVec.ofNat 32 (n - p), decNerrData := BitVec.ofNat 16 e,
              decNerrMeta := 0 } ∧
        t.decNerrData.toNat = e ∧
        ∀ sp a, t.loadByte sp a =
          if sp = .ebuf ∧ s.rsDst.toNat ≤ a ∧ a < s.rsDst.toNat + (n - p) then msg.getD (a - s.rsDst.toNat) 0
          else s.loadByte sp a))

/-- ENV_BUILD (43_fec_codec R242) in a state whose dimensions pass the grid's checks: the errors in order, and the envelope
stored at `EBUF[0]`. The grid and traversal registers are not written. -/
def Obligations.EnvBuildStoresEnvelope : Prop :=
  encode .envBuild = 0x00000030#32 ∧
  ∀ s : State,
    let k := s.payloadLen.toNat
    (∀ e, gridCompute Config.params s = .error e → exec .envBuild s = .next (s.failed e.code e.detail)) ∧
    (s.dimsUsable → 2073600 < k → exec .envBuild s = .next (s.failed 5 3)) ∧
    (s.dimsUsable → k = 0 → exec .envBuild s = .next (s.failed 2 1)) ∧
    (s.dimsUsable → 0 < k → k ≤ 2073600 → s.dimN < 8 + k + min k 64 → exec .envBuild s = .next (s.failed 3 2)) ∧
    (s.dimsUsable → 0 < k → k ≤ 2073600 → 8 + k + min k 64 ≤ s.dimN →
      ∃ t, exec .envBuild s = .next t ∧
        t = { s.completed with
              ebuf := t.ebuf, envLen := BitVec.ofNat 32 (8 + k + min k 64),
              dataLen := BitVec.ofNat 32 (k + min k 64), dataNsym := BitVec.ofNat 8 (min k 64) } ∧
        ∀ sp a, t.loadByte sp a =
          if sp = .ebuf ∧ a < 8 + k + min k 64 then (envelopeOf (s.loadBytes .pbuf 0 k)).getD a 0
          else s.loadByte sp a)

/-- `ParseEnvelope` (43_fec_codec R245), its steps and failures in order, with the constants written out. -/
def Obligations.ParseEnvelopeSteps : Prop :=
  ∀ raw : List Byte,
    (raw.length < 8 → parseEnvelope Config.params raw = .error .frameTooSmall) ∧
    (8 ≤ raw.length →
      (rsDecode Config.params (raw.take 8) 4 = none → parseEnvelope Config.params raw = .error .metaCorrupt) ∧
      (∀ lf em, rsDecode Config.params (raw.take 8) 4 = some (lf, em) →
        (raw.length < 8 + unle lf → parseEnvelope Config.params raw = .error .lengthCorrupt) ∧
        (8 + unle lf ≤ raw.length →
          (rsDecode Config.params ((raw.drop 8).take (unle lf)) (min (unle lf / 2) 64) = none →
            parseEnvelope Config.params raw = .error .dataCorrupt) ∧
          (∀ payload ed,
            rsDecode Config.params ((raw.drop 8).take (unle lf)) (min (unle lf / 2) 64) = some (payload, ed) →
            parseEnvelope Config.params raw = .ok ⟨payload, unle lf, min (unle lf / 2) 64, em, ed⟩))))

/-- ENV_PARSE (43_fec_codec R246): a failed parse writes only `STATUS`; a successful one stores the payload at `PBUF[0]`. -/
def Obligations.EnvParseStoresPayload : Prop :=
  encode .envParse = 0x00000031#32 ∧
  ∀ s : State,
    (∀ e, gridCompute Config.params s = .error e → exec .envParse s = .next (s.failed e.code e.detail)) ∧
    (s.dimsUsable → ∀ e, parseEnvelope Config.params (s.loadBytes .ebuf 0 s.dimN) = .error e →
      exec .envParse s = .next (s.failed e.code e.detail)) ∧
    (s.dimsUsable → ∀ q, parseEnvelope Config.params (s.loadBytes .ebuf 0 s.dimN) = .ok q →
      ∃ t, exec .envParse s = .next t ∧
        t = { s.completed with
              pbuf := t.pbuf, payloadLen := BitVec.ofNat 32 q.payload.length,
              dataLen := BitVec.ofNat 32 q.dataLen, dataNsym := BitVec.ofNat 8 q.parity,
              decNerrMeta := BitVec.ofNat 16 q.metaErrs, decNerrData := BitVec.ofNat 16 q.dataErrs } ∧
        q.payload.length = q.dataLen - q.parity ∧
        ∀ sp a, t.loadByte sp a =
          if sp = .pbuf ∧ a < q.payload.length then q.payload.getD a 0 else s.loadByte sp a)

/-- The envelope's size and when it can be built (the spec's own inference, 43_fec_codec R248): it is `8 + k + min(k, 64)`
bytes long and succeeds exactly when that is at most `N`; a payload of at most `N − 72` bytes always fits. -/
def Obligations.EnvelopeSizeAndCapacity : Prop :=
  ∀ (payload : List Byte) (n : Nat),
    (envelopeOf payload).length = 8 + payload.length + min payload.length 64 ∧
    (8 + payload.length + min payload.length 64 ≤ n → buildEnvelope Config.params payload n =
      .ok ⟨envelopeOf payload, payload.length + min payload.length 64, min payload.length 64⟩) ∧
    (n < 8 + payload.length + min payload.length 64 →
      buildEnvelope Config.params payload n = .error .envelopeTooLong) ∧
    (payload.length + 72 ≤ n → 8 + payload.length + min payload.length 64 ≤ n)

/-- A built envelope, followed by anything, parses back to its payload with no corrections, and the decode-time parity is
the encode-time one (the spec's own inference, 43_fec_codec R247; source §8 "Envelope round-trip"). -/
def Obligations.EnvelopeRoundTrip : Prop :=
  ∀ payload rest : List Byte, payload.length + 64 < 2 ^ 32 →
    parseEnvelope Config.params (envelopeOf payload ++ rest) =
      .ok ⟨payload, payload.length + min payload.length 64, min payload.length 64, 0, 0⟩

/-- Noise tolerance at the envelope (the spec's own inference, 44_frame_pipelines R267): with at most 2 wrong metadata
bytes, and at most `symcount div 2` wrong data bytes where `L ≤ 255`, the payload is recovered; where `L > 255`, a wrong
data block that is not itself a codeword fails with `CORRUPTION DATA`. -/
def Obligations.EnvelopeNoiseTolerance : Prop :=
  ∀ payload raw : List Byte, payload.length + 64 < 2 ^ 32 →
    let l := payload.length + min payload.length 64
    let data := (raw.drop 8).take l
    8 + l ≤ raw.length → hamming (raw.take 8) ((envelopeOf payload).take 8) ≤ 2 →
    (l ≤ 255 → hamming data ((envelopeOf payload).drop 8) ≤ min payload.length 64 / 2 →
      parseEnvelope Config.params raw =
        .ok ⟨payload, l, min payload.length 64, hamming (raw.take 8) ((envelopeOf payload).take 8),
          hamming data ((envelopeOf payload).drop 8)⟩) ∧
    (255 < l → isCodeword Config.params (min payload.length 64) data = false →
      parseEnvelope Config.params raw = .error .dataCorrupt)

/-! ### Pipelines -/

/-- FRAME_ENCODE (44_frame_pipelines R260 to R262): its failures in order (the grid's, the stream's length, an empty stream,
no room); else the registers it writes, the envelope in `EBUF`, and every pixel of the frame: block `i` of the row-major
order shows envelope byte `i`, everything else the background. -/
def Obligations.FrameEncodeRendersEnvelope : Prop :=
  encode .frameEncode = 0x00000040#32 ∧
  (∀ (s : State) (e : CmdError), gridCompute Config.params s = .error e →
    exec .frameEncode s = .next (s.failed e.code e.detail)) ∧
  (∀ s : State, s.dimsUsable →
    (2073600 < s.streamLen.toNat → exec .frameEncode s = .next (s.failed 5 3)) ∧
    (s.streamLen.toNat = 0 → exec .frameEncode s = .next (s.failed 2 1)) ∧
    (0 < s.streamLen.toNat → s.streamLen.toNat ≤ 2073600 → s.dimN ≤ 72 →
      exec .frameEncode s = .next (s.failed 3 1))) ∧
  ∀ s : State, s.dimsUsable → 0 < s.streamLen.toNat → s.streamLen.toNat ≤ 2073600 → 72 < s.dimN →
    let k := min s.streamLen.toNat (s.dimN - 72)
    let l := k + min k 64
    let env := envelopeOf (s.loadBytes .pbuf 0 k)
    ∃ t, exec .frameEncode s = .next t ∧
      t = { s.completed with
            fb := t.fb, ebuf := t.ebuf,
            gridCols := BitVec.ofNat 16 s.dimCols, gridRows := BitVec.ofNat 16 s.dimRows,
            gridN := BitVec.ofNat 32 s.dimN, capacity := BitVec.ofInt 32 ((s.dimN : Int) - 72),
            payloadLen := BitVec.ofNat 32 k, envLen := BitVec.ofNat 32 (8 + l), dataLen := BitVec.ofNat 32 l,
            dataNsym := BitVec.ofNat 8 (min k 64), travIdx := BitVec.ofNat 32 (8 + l),
            travX := BitVec.ofNat 16 ((8 + l) % s.dimCols), travY := BitVec.ofNat 16 ((8 + l) / s.dimCols) } ∧
      (∀ a, t.loadByte .ebuf a = if a < 8 + l then env.getD a 0 else s.loadByte .ebuf a) ∧
      (∀ a, t.loadByte .pbuf a = s.loadByte .pbuf a) ∧
      (∀ px py c, px < s.frameW.toNat → py < s.frameH.toNat → c < 3 →
        let i := py / s.blockH.toNat * s.dimCols + px / s.blockW.toNat
        t.loadByte .fb (fbAddr s.frameW.toNat px py c) =
          if px / s.blockW.toNat < s.dimCols ∧ py / s.blockH.toNat < s.dimRows ∧ i < 8 + l then
            rgbChannel (encodeColor (env.getD i 0)) c
          else rgbChannel s.bgRgb c) ∧
      (∀ a, 3 * (s.frameW.toNat * s.frameH.toNat) ≤ a → t.loadByte .fb a = s.loadByte .fb a)

/-- FRAME_DECODE (44_frame_pipelines R264, R265): the scan commit is kept whether or not the parse succeeds; the payload and
its registers are written only if it does. -/
def Obligations.FrameDecodeCommitsScan : Prop :=
  encode .frameDecode = 0x00000041#32 ∧
  ∀ s : State,
    (∀ e, gridCompute Config.params s = .error e → exec .frameDecode s = .next (s.failed e.code e.detail)) ∧
    (s.dimsUsable →
      let raw := (List.range s.dimN).map fun i =>
        blockByte Config.params s (blockRect s.blockW.toNat s.blockH.toNat (i % s.dimCols) (i / s.dimCols))
      ∃ t, exec .frameDecode s = .next t ∧
        (∀ e, parseEnvelope Config.params raw = .error e →
          t = { s.failed e.code e.detail with
                ebuf := t.ebuf,
                gridCols := BitVec.ofNat 16 s.dimCols, gridRows := BitVec.ofNat 16 s.dimRows,
                gridN := BitVec.ofNat 32 s.dimN, capacity := BitVec.ofInt 32 ((s.dimN : Int) - 72),
                travIdx := BitVec.ofNat 32 s.dimN, travX := 0, travY := BitVec.ofNat 16 s.dimRows } ∧
          ∀ sp a, t.loadByte sp a = if sp = .ebuf ∧ a < s.dimN then raw.getD a 0 else s.loadByte sp a) ∧
        (∀ q, parseEnvelope Config.params raw = .ok q →
          t = { s.completed with
                ebuf := t.ebuf, pbuf := t.pbuf,
                gridCols := BitVec.ofNat 16 s.dimCols, gridRows := BitVec.ofNat 16 s.dimRows,
                gridN := BitVec.ofNat 32 s.dimN, capacity := BitVec.ofInt 32 ((s.dimN : Int) - 72),
                travIdx := BitVec.ofNat 32 s.dimN, travX := 0, travY := BitVec.ofNat 16 s.dimRows,
                payloadLen := BitVec.ofNat 32 q.payload.length, dataLen := BitVec.ofNat 32 q.dataLen,
                dataNsym := BitVec.ofNat 8 q.parity, decNerrMeta := BitVec.ofNat 16 q.metaErrs,
                decNerrData := BitVec.ofNat 16 q.dataErrs } ∧
          ∀ sp a, t.loadByte sp a =
            if sp = .ebuf ∧ a < s.dimN then raw.getD a 0
            else if sp = .pbuf ∧ a < q.payload.length then q.payload.getD a 0
            else s.loadByte sp a))

/-- End-to-end round trip (the spec's own inference, 44_frame_pipelines R266): FRAME_ENCODE, then FRAME_DECODE, recovers the
stream bytes taken and leaves every byte of `PBUF` as it was; every block decodes to the byte rendered into it, a padding
block to the background's. -/
def Obligations.FrameRoundTrip : Prop :=
  ∀ s : State, s.dimsUsable → 0 < s.streamLen.toNat → s.streamLen.toNat ≤ 2073600 → 72 < s.dimN →
    ∃ t u, exec .frameEncode s = .next t ∧ exec .frameDecode t = .next u ∧ u.err = s.err ∧
      u.payloadLen.toNat = min s.streamLen.toNat (s.dimN - 72) ∧ u.dataLen = t.dataLen ∧ u.dataNsym = t.dataNsym ∧
      u.decNerrData = 0 ∧ u.decNerrMeta = 0 ∧ u.travDone = true ∧
      (∀ a, u.loadByte .pbuf a = s.loadByte .pbuf a) ∧
      (∀ a, u.loadByte .ebuf a =
        if a < t.envLen.toNat then t.loadByte .ebuf a
        else if a < s.dimN then decodeColor s.bgRgb else s.loadByte .ebuf a)

/-! ### Errors -/

/-- State commit (60_exceptions R310): a command that ends in an error changes nothing but `STATUS`; FRAME_DECODE's scan
commit is the one exception. -/
def Obligations.ErrorsCommitOnlyStatus : Prop :=
  ∀ (i : Instr) (s t : State), s.err = false → exec i s = .next t → t.err = true →
    t = s.failed t.errCode t.errDetail ∨
    (i = .frameDecode ∧ s.dimsUsable ∧
      t = { s.failed t.errCode t.errDetail with
            ebuf := t.ebuf, gridCols := t.gridCols, gridRows := t.gridRows, gridN := t.gridN,
            capacity := t.capacity, travIdx := t.travIdx, travX := t.travX, travY := t.travY } ∧
      ∀ sp a, sp ≠ .ebuf ∨ s.dimN ≤ a → t.loadByte sp a = s.loadByte sp a)

/-! ### The host port -/

/-- Illegal accesses (20_memory R93): `BUSERR` and nothing else (a read returns 0), busy or not; a legal access never sets
it. That the 0 stands in `rdata` is the model's choice, log 8. -/
def Obligations.IllegalAccessSetsBusErr : Prop :=
  ∀ (s : State) (es : List Event) (addr v : Word) (w : Width),
    (¬ legalAccess addr.toNat w →
      step { s with schedule := .access (.read addr w) :: es } =
        .next { s with schedule := es, busErr := true, rdata := 0 } ∧
      step { s with schedule := .access (.write addr w v) :: es } = .next { s with schedule := es, busErr := true }) ∧
    (legalAccess addr.toNat w → ∃ t u,
      step { s with schedule := .access (.read addr w) :: es } = .next t ∧ t.busErr = s.busErr ∧
      step { s with schedule := .access (.write addr w v) :: es } = .next u ∧ (u.busErr = true → s.busErr = true))

/-- A legal register read (20_memory R91): `rdata` takes the register's value, 0 at a reserved offset; nothing else changes.
Then, offset by offset of 10_state R31, the number it takes, from the state or from the parameters; `STATUS` and the two
rectangle registers have statements of their own. Of `rdata`, the model's own field, see log 8. -/
def Obligations.RegisterReadReturnsValue : Prop :=
  (∀ (s : State) (es : List Event) (off : Nat), off < 0x1000 → off % 4 = 0 →
    (∀ r, (off, r) ∈ regMap →
      step { s with schedule := .access (.read (BitVec.ofNat 32 off) .w4) :: es } =
        .next { s with schedule := es, rdata := readReg Config.params s r }) ∧
    (0x090 ≤ off →
      step { s with schedule := .access (.read (BitVec.ofNat 32 off) .w4) :: es } =
        .next { s with schedule := es, rdata := 0 })) ∧
  ∀ (s : State) (es : List Event), ∀ x ∈ [
      (0x000, 0x44325601), (0x004, s.irqEn.toNat), (0x008, (readReg Config.params s .status).toNat), (0x00C, s.cmd.toNat),
      (0x010, s.frameW.toNat), (0x014, s.frameH.toNat), (0x018, s.blockW.toNat), (0x01C, s.blockH.toNat),
      (0x020, s.gridCols.toNat), (0x024, s.gridRows.toNat), (0x028, s.gridN.toNat), (0x02C, s.capacity.toNat),
      (0x030, s.travIdx.toNat), (0x034, 65536 * s.travY.toNat + s.travX.toNat),
      (0x038, (readReg Config.params s .rectXy0).toNat), (0x03C, (readReg Config.params s .rectXy1).toNat),
      (0x040, s.streamLen.toNat), (0x044, s.payloadLen.toNat), (0x048, s.envLen.toNat), (0x04C, s.dataLen.toNat),
      (0x050, s.dataNsym.toNat), (0x054, s.qbyte.toNat),
      (0x058, 65536 * s.qrgb.b.toNat + 256 * s.qrgb.g.toNat + s.qrgb.r.toNat),
      (0x05C, 65536 * s.dqRgb.b.toNat + 256 * s.dqRgb.g.toNat + s.dqRgb.r.toNat), (0x060, s.dqByte.toNat),
      (0x064, s.rsSrc.toNat), (0x068, s.rsDst.toNat), (0x06C, s.rsLen.toNat), (0x070, s.rsNsym.toNat),
      (0x074, s.rsOutlen.toNat), (0x078, 65536 * s.decNerrMeta.toNat + s.decNerrData.toNat),
      (0x07C, 65536 * s.bgRgb.b.toNat + 256 * s.bgRgb.g.toNat + s.bgRgb.r.toNat),
      (0x080, 0x04084004), (0x084, 0x0002011D), (0x088, 0x0000FE00), (0x08C, 2073600)],
    step { s with schedule := .access (.read (BitVec.ofNat 32 x.1) .w4) :: es } =
      .next { s with schedule := es, rdata := BitVec.ofNat 32 x.2 }

/-- Register writes by a host (10_state R34), while no command is pending: a RW register takes its defined fields and
nothing else changes, said offset by offset of R31 as a state, and again as what the host reads (only `BLOCK_W` and
`BLOCK_H` move the two rectangle registers, R44); RO and RC registers and reserved offsets ignore the write; `STATUS`
performs its W1C actions; `CMD` accepts the command. -/
def Obligations.RegisterWriteRules : Prop :=
  ∀ (s : State) (es : List Event) (off : Nat) (v : Word), s.busy = false → off < 0x1000 → off % 4 = 0 →
    let e : Event := .access (.write (BitVec.ofNat 32 off) .w4 v)
    (∀ x ∈ [
        (0x004, { s with irqEn := v.getLsbD 0 }),
        (0x010, { s with frameW := v.extractLsb' 0 16 }), (0x014, { s with frameH := v.extractLsb' 0 16 }),
        (0x018, { s with blockW := v.extractLsb' 0 16 }), (0x01C, { s with blockH := v.extractLsb' 0 16 }),
        (0x040, { s with streamLen := v }), (0x044, { s with payloadLen := v }),
        (0x054, { s with qbyte := v.extractLsb' 0 8 }),
        (0x05C, { s with dqRgb := ⟨v.extractLsb' 0 8, v.extractLsb' 8 8, v.extractLsb' 16 8⟩ }),
        (0x064, { s with rsSrc := v }), (0x068, { s with rsDst := v }), (0x06C, { s with rsLen := v }),
        (0x070, { s with rsNsym := v.extractLsb' 0 8 }),
        (0x07C, { s with bgRgb := ⟨v.extractLsb' 0 8, v.extractLsb' 8 8, v.extractLsb' 16 8⟩ })],
      off = x.1 → step { s with schedule := e :: es } = .next { x.2 with schedule := es }) ∧
    (∀ r, (off, r) ∈ regMap → r.isOperand = true ∨ r = .ctrl → ∃ t,
      step { s with schedule := e :: es } = .next t ∧
      readReg Config.params t r =
        v &&& (match r with
          | .ctrl => 0x00000001#32
          | .frameW | .frameH | .blockW | .blockH => 0x0000FFFF#32
          | .qbyte | .rsNsym => 0x000000FF#32
          | .dqRgb | .bgRgb => 0x00FFFFFF#32
          | _ => 0xFFFFFFFF#32) ∧
      (∀ r', r' ≠ r → ¬ (r' ∈ [Reg.rectXy0, .rectXy1] ∧ r ∈ [Reg.blockW, .blockH]) →
        readReg Config.params t r' = readReg Config.params s r') ∧
      t.pending = s.pending ∧ (∀ sp a, t.loadByte sp a = s.loadByte sp a)) ∧
    (∀ r, (off, r) ∈ regMap → r.isOperand = false → r ≠ .ctrl → r ≠ .status → r ≠ .cmd →
      step { s with schedule := e :: es } = .next { s with schedule := es }) ∧
    (0x090 ≤ off → step { s with schedule := e :: es } = .next { s with schedule := es }) ∧
    (off = 0x008 → step { s with schedule := e :: es } = .next { s.clearStatus v with schedule := es }) ∧
    (off = 0x00C → step { s with schedule := e :: es } = .next { s.accept v with schedule := es })

/-- Command acceptance (10_state R61): what a write to `CMD` writes while not busy, and that it is not accepted while busy.
-/
def Obligations.CommandAcceptance : Prop :=
  ∀ (s : State) (es : List Event) (w : Word),
    (s.pending = none →
      step { s with schedule := .access (.write 0x0000000C#32 .w4 w) :: es } =
        .next { s with
          schedule := es, cmd := w, done := false, err := false, errCode := 0, errDetail := 0, pending := some w }) ∧
    (s.pending ≠ none →
      step { s with schedule := .access (.write 0x0000000C#32 .w4 w) :: es } =
        .next { s with schedule := es, ovr := true })

/-- `STATUS` (10_state R33): its word as a number, each field at its place and reserved bits 0; and its write-one-to-clear
bits, busy or not: each written 1 clears its bit, `ERR` its codes too, and nothing else changes. -/
def Obligations.StatusRegisterFields : Prop :=
  (∀ s : State, (readReg Config.params s .status).toNat =
    s.busy.toNat + 2 * s.done.toNat + 4 * s.err.toNat + 8 * s.ovr.toNat + 16 * s.busErr.toNat +
      (if s.gridN.toNat ≤ s.travIdx.toNat then 32 else 0) + 256 * s.errCode.toNat + 65536 * s.errDetail.toNat) ∧
  ∀ (s : State) (es : List Event) (v : Word), ∃ t,
    step { s with schedule := .access (.write 0x00000008#32 .w4 v) :: es } = .next t ∧
    t = { s with
          schedule := es, done := t.done, err := t.err, errCode := t.errCode, errDetail := t.errDetail,
          ovr := t.ovr, busErr := t.busErr } ∧
    t.done = (s.done && !v.getLsbD 1) ∧ t.err = (s.err && !v.getLsbD 2) ∧ t.ovr = (s.ovr && !v.getLsbD 3) ∧
    t.busErr = (s.busErr && !v.getLsbD 4) ∧
    (v.getLsbD 2 = true → t.errCode = 0 ∧ t.errDetail = 0) ∧
    (v.getLsbD 2 = false → t.errCode = s.errCode ∧ t.errDetail = s.errDetail)

/-- The two rectangle registers (10_state R44): the bounds of the current block, each modulo 2^16; a zero block dimension
reads 0xFFFF in the upper bound. -/
def Obligations.RectRegistersGiveBounds : Prop :=
  ∀ s : State,
    let x := s.travX.toNat; let y := s.travY.toNat; let bw := s.blockW.toNat; let bh := s.blockH.toNat
    (readReg Config.params s .rectXy0).toNat = y * bh % 2 ^ 16 * 2 ^ 16 + x * bw % 2 ^ 16 ∧
    (readReg Config.params s .rectXy1).toNat =
      (if bh = 0 then 0xFFFF else ((y + 1) * bh - 1) % 2 ^ 16) * 2 ^ 16 +
        (if bw = 0 then 0xFFFF else ((x + 1) * bw - 1) % 2 ^ 16)

/-- Buffer accesses while no command is pending (20_memory R92): width 1 moves the one byte, an aligned width 4 moves four
bytes as one little-endian word; nothing else changes. Of `rdata` see log 8, of a width-1 value log 14. -/
def Obligations.BufferAccessesAreLittleEndian : Prop :=
  ∀ (s : State) (es : List Event) (sp : Space) (off : Nat) (v : Word), s.busy = false →
    let addr : Word := BitVec.ofNat 32 (windowBase sp + off)
    (off < Config.params.sizeOf sp →
      step { s with schedule := .access (.read addr .w1) :: es } =
        .next { s with schedule := es, rdata := (s.loadByte sp off).setWidth 32 } ∧
      ∃ t, step { s with schedule := .access (.write addr .w1 v) :: es } = .next t ∧
        t = { s with schedule := es, pbuf := t.pbuf, ebuf := t.ebuf, fb := t.fb } ∧
        ∀ sp' a, t.loadByte sp' a = if sp' = sp ∧ a = off then v.setWidth 8 else s.loadByte sp' a) ∧
    (off % 4 = 0 → off + 4 ≤ Config.params.sizeOf sp →
      step { s with schedule := .access (.read addr .w4) :: es } =
        .next { s with
          schedule := es
          rdata := (s.loadByte sp (off + 3) ++ s.loadByte sp (off + 2) ++ s.loadByte sp (off + 1) ++
            s.loadByte sp off) } ∧
      ∃ t, step { s with schedule := .access (.write addr .w4 v) :: es } = .next t ∧
        t = { s with schedule := es, pbuf := t.pbuf, ebuf := t.ebuf, fb := t.fb } ∧
        ∀ sp' a, t.loadByte sp' a =
          if sp' = sp ∧ off ≤ a ∧ a < off + 4 then v.extractLsb' (8 * (a - off)) 8 else s.loadByte sp' a)

/-- The busy hazard (70_reset R350 a to f, the last point in a state that keeps the status invariant), and that a write to a
read-only or computed register or to a reserved offset is ignored while busy too (10_state R34). The model's choices: a
read's result stands in `rdata` (log 8), and a buffer read takes a fresh free value and a draw (log 7). -/
def Obligations.BusyHazards : Prop :=
  ∀ (s : State) (es : List Event) (v : Word), s.busy = true →
    step { s with schedule := .access (.write 0x0000000C#32 .w4 v) :: es } =
      .next { s with schedule := es, ovr := true } ∧
    (∀ off r, (off, r) ∈ regMap → r.isOperand = true →
      step { s with schedule := .access (.write (BitVec.ofNat 32 off) .w4 v) :: es } =
        .next { s with schedule := es, ovr := true }) ∧
    (∀ sp off w, legalAccess (windowBase sp + off) w → off < Config.params.sizeOf sp →
      step { s with schedule := .access (.write (BitVec.ofNat 32 (windowBase sp + off)) w v) :: es } =
        .next { s with schedule := es, ovr := true } ∧
      ∃ x, step { s with schedule := .access (.read (BitVec.ofNat 32 (windowBase sp + off)) w) :: es } =
        .next { s with schedule := es, rdata := x, draws := s.draws + 1 }) ∧
    (∀ off r, (off, r) ∈ regMap →
      step { s with schedule := .access (.read (BitVec.ofNat 32 off) .w4) :: es } =
        .next { s with schedule := es, rdata := readReg Config.params s r }) ∧
    step { s with schedule := .access (.write 0x00000004#32 .w4 v) :: es } =
      .next { s with schedule := es, irqEn := v.getLsbD 0 } ∧
    step { s with schedule := .access (.write 0x00000008#32 .w4 v) :: es } =
      .next { s.clearStatus v with schedule := es } ∧
    (∀ off r, (off, r) ∈ regMap → r.isOperand = false → r ≠ .ctrl → r ≠ .status → r ≠ .cmd →
      step { s with schedule := .access (.write (BitVec.ofNat 32 off) .w4 v) :: es } =
        .next { s with schedule := es }) ∧
    (∀ off, 0x090 ≤ off → off < 0x1000 → off % 4 = 0 →
      step { s with schedule := .access (.write (BitVec.ofNat 32 off) .w4 v) :: es } =
        .next { s with schedule := es }) ∧
    (s.StatusOk → s.done = false ∧ s.err = false)

/-- The interrupt line (60_exceptions R320, and R321, the spec's own inference from it): raised by completion with `IRQ_EN`,
and by enabling it while `DONE`; lowered by a W1C of `DONE`, by acceptance, by disabling it, by SOFT_RESET and by a hardware
reset. -/
def Obligations.InterruptFollowsDone : Prop :=
  ∀ (s : State) (es : List Event) (v : Word),
    (∀ i, i ≠ .softReset → s.irqEn = true → ∃ t, exec i s = .next t ∧ t.irq = true) ∧
    (∃ t, exec .softReset s = .next t ∧ t.irq = false) ∧
    (s.accept v).irq = false ∧
    (∃ t, step { s with schedule := .access (.write 0x00000008#32 .w4 0x00000002#32) :: es } = .next t ∧
      t.irq = false) ∧
    (∃ t, step { s with schedule := .access (.write 0x00000004#32 .w4 v) :: es } = .next t ∧
      t.irq = (v.getLsbD 0 && s.done)) ∧
    (∃ t, step { s with schedule := .hardReset :: es } = .next t ∧ t.irq = false)

/-! ### Reset -/

/-- The register values after a hardware reset, busy or idle (10_state R31, 70_reset R340, R341), and that nothing is
pending. That the schedule and `rdata`, the model's own fields (logs 1, 8), survive it is the model's reading, log 5. -/
def Obligations.HardResetRestoresRegisters : Prop :=
  ∀ (s : State) (es : List Event), ∃ t, step { s with schedule := .hardReset :: es } = .next t ∧
    (∀ x ∈ resetValues, readReg Config.params t x.1 = x.2) ∧
    t.pending = none ∧ t.irq = false ∧ t.schedule = es ∧ t.rdata = s.rdata

/-- The buffers after a hardware reset. Idle: every byte is a fresh free value (20_memory R81). Busy: so are the bytes the
abandoned command would have stored to, and every other byte keeps its value (70_reset R341). The reading of R340 and R341
together is the model's, logs 5 and 6; what `pendingStores` covers is the statement WriteSetOfPendingCommand. -/
def Obligations.HardResetRedrawsBuffers : Prop :=
  ∀ (s : State) (es : List Event), ∃ t, step { s with schedule := .hardReset :: es } = .next t ∧
    (s.busy = false → ∀ sp a, t.loadByte sp a = Config.freeByte s.draws sp a) ∧
    (s.busy = true → ∀ sp a, t.loadByte sp a =
      if (pendingStores Config.params s).any (fun st => st.covers sp a) then Config.freeByte s.draws sp a
      else s.loadByte sp a)

/-- The state after power-up (10_state R31, 70_reset R340): the register values, `STATUS` 0x20, nothing pending. That every
buffer byte, unspecified by 20_memory R81, is a free value of the reset draw is the model's choice, log 4. -/
def Obligations.ResetStateRegisters : Prop :=
  (∀ x ∈ resetValues, readReg Config.params State.reset x.1 = x.2) ∧ State.reset.pending = none ∧
  State.reset.busy = false ∧ State.reset.irq = false ∧
  ∀ sp a, State.reset.loadByte sp a = Config.freeByte State.reset.epoch sp a

/-! ### The whole machine -/

/-- Only GRID_SETUP, TRAV_RESET, TRAV_NEXT, FRAME_ENCODE, FRAME_DECODE, SOFT_RESET and reset change the grid and traversal
registers (10_state R43): no other step does. -/
def Obligations.OnlyGridCommandsMoveTraversal : Prop :=
  ∀ s t : State, step s = .next t → s.schedule.head? ≠ some .hardReset →
    (s.schedule.head? = none ∨ s.schedule.head? = some .engine → ∀ w i, s.pending = some w → decode w = .ok i →
      i ∉ [Instr.gridSetup, .travReset, .travNext, .frameEncode, .frameDecode, .softReset]) →
    t.gridCols = s.gridCols ∧ t.gridRows = s.gridRows ∧ t.gridN = s.gridN ∧ t.capacity = s.capacity ∧
    t.travIdx = s.travIdx ∧ t.travX = s.travX ∧ t.travY = s.travY

/-- Every accepted command ends after finitely many steps (70_reset R360): the schedule is finite, and once it is used up
the engine has the turn (log 1). Where no reset is scheduled it is performed: it is still pending when a step comes that
answers with it no longer pending and `DONE` set. (A reset would abandon it, R341.) -/
def Obligations.AcceptedCommandCompletes : Prop :=
  ∀ s : State, s.busy = true →
    (∃ k ≤ s.schedule.length + 1, ∃ t, Host.Core.run Sys2Proof.core k s = .next t ∧ t.busy = false) ∧
    (Event.hardReset ∉ s.schedule → ∃ k ≤ s.schedule.length, ∃ u t : State,
      Host.Core.run Sys2Proof.core k s = .next u ∧ u.pending = s.pending ∧
      step u = .next t ∧ t.pending = none ∧ t.done = true)

/-- The invariant holds at reset. Its part `DrawsOk` rests on the reset values of the model's own counters, log 4. -/
def Obligations.ResetHasInvariant : Prop := State.reset.Inv

/-- Every step, of the engine, the host or the reset input, keeps the invariant: buffers in canonical form and bounds, the
grid and traversal relations of 10_state R41 and R42 (which the spec marks as derived), and a `STATUS` record of
60_exceptions R301. Its part `DrawsOk` is about the model's own counters, log 4. -/
def Obligations.StepKeepsInvariant : Prop :=
  ∀ s t : State, s.Inv → step s = .next t → t.Inv

/-! ### The write set of a pending command -/

/-- The buffer part of a pending command's write set (70_reset R341), as the model takes it, log 6: a byte it does not cover
is one the command would leave as it is; it covers bytes of the buffers in the command's row of 30_encoding R123 only, and
none for a word that dispatch rejects. R341's own example in numbers: for a FRAME_ENCODE that renders a frame it covers
exactly the frame area of `FB` and `EBUF[0:ENV_LEN]`. -/
def Obligations.WriteSetOfPendingCommand : Prop :=
  ∀ (s : State) (w : Word), s.pending = some w →
    let covered (sp : Space) (a : Nat) : Prop := (pendingStores Config.params s).any (fun st => st.covers sp a) = true
    (∀ i, decode w = .ok i →
      (∀ t, exec i s = .next t → ∀ sp a, ¬ covered sp a → t.loadByte sp a = s.loadByte sp a) ∧
      (∀ a, covered .fb a → i ∈ [Instr.fbClear, .fillBlock, .frameEncode]) ∧
      (∀ a, covered .ebuf a → i ∈ [Instr.rsEnc, .rsDec, .envBuild, .frameEncode, .frameDecode]) ∧
      (∀ a, covered .pbuf a → i ∈ [Instr.envParse, .frameDecode])) ∧
    (∀ e, decode w = .error e → ∀ sp a, ¬ covered sp a) ∧
    (w = 0x00000040#32 → s.dimsUsable → 0 < s.streamLen.toNat → s.streamLen.toNat ≤ 2073600 → 72 < s.dimN →
      let k := min s.streamLen.toNat (s.dimN - 72)
      ∀ sp a, covered sp a ↔
        (sp = .fb ∧ a < 3 * (s.frameW.toNat * s.frameH.toNat)) ∨ (sp = .ebuf ∧ a < 8 + k + min k 64))
end

