-- ==== Sys2Proof/Laws/State.lean ====
section
/-! SUPPORT. One lemma per field and update of the state: what each shared update leaves unchanged, and what it writes. -/

namespace Sys2Proof.Machine

variable (s : State)


/-! ### `State.complete` -/

@[simp] theorem complete_irqEn (o : Option CmdError) : (s.complete o).irqEn = s.irqEn := by cases o <;> rfl
@[simp] theorem complete_done (o : Option CmdError) : (s.complete o).done = true := by cases o <;> rfl
@[simp] theorem complete_ovr (o : Option CmdError) : (s.complete o).ovr = s.ovr := by cases o <;> rfl
@[simp] theorem complete_busErr (o : Option CmdError) : (s.complete o).busErr = s.busErr := by cases o <;> rfl
@[simp] theorem complete_cmd (o : Option CmdError) : (s.complete o).cmd = s.cmd := by cases o <;> rfl
@[simp] theorem complete_frameW (o : Option CmdError) : (s.complete o).frameW = s.frameW := by cases o <;> rfl
@[simp] theorem complete_frameH (o : Option CmdError) : (s.complete o).frameH = s.frameH := by cases o <;> rfl
@[simp] theorem complete_blockW (o : Option CmdError) : (s.complete o).blockW = s.blockW := by cases o <;> rfl
@[simp] theorem complete_blockH (o : Option CmdError) : (s.complete o).blockH = s.blockH := by cases o <;> rfl
@[simp] theorem complete_gridCols (o : Option CmdError) : (s.complete o).gridCols = s.gridCols := by cases o <;> rfl
@[simp] theorem complete_gridRows (o : Option CmdError) : (s.complete o).gridRows = s.gridRows := by cases o <;> rfl
@[simp] theorem complete_gridN (o : Option CmdError) : (s.complete o).gridN = s.gridN := by cases o <;> rfl
@[simp] theorem complete_capacity (o : Option CmdError) : (s.complete o).capacity = s.capacity := by cases o <;> rfl
@[simp] theorem complete_travIdx (o : Option CmdError) : (s.complete o).travIdx = s.travIdx := by cases o <;> rfl
@[simp] theorem complete_travX (o : Option CmdError) : (s.complete o).travX = s.travX := by cases o <;> rfl
@[simp] theorem complete_travY (o : Option CmdError) : (s.complete o).travY = s.travY := by cases o <;> rfl
@[simp] theorem complete_streamLen (o : Option CmdError) : (s.complete o).streamLen = s.streamLen := by cases o <;> rfl
@[simp] theorem complete_payloadLen (o : Option CmdError) : (s.complete o).payloadLen = s.payloadLen := by cases o <;> rfl
@[simp] theorem complete_envLen (o : Option CmdError) : (s.complete o).envLen = s.envLen := by cases o <;> rfl
@[simp] theorem complete_dataLen (o : Option CmdError) : (s.complete o).dataLen = s.dataLen := by cases o <;> rfl
@[simp] theorem complete_dataNsym (o : Option CmdError) : (s.complete o).dataNsym = s.dataNsym := by cases o <;> rfl
@[simp] theorem complete_qbyte (o : Option CmdError) : (s.complete o).qbyte = s.qbyte := by cases o <;> rfl
@[simp] theorem complete_qrgb (o : Option CmdError) : (s.complete o).qrgb = s.qrgb := by cases o <;> rfl
@[simp] theorem complete_dqRgb (o : Option CmdError) : (s.complete o).dqRgb = s.dqRgb := by cases o <;> rfl
@[simp] theorem complete_dqByte (o : Option CmdError) : (s.complete o).dqByte = s.dqByte := by cases o <;> rfl
@[simp] theorem complete_rsSrc (o : Option CmdError) : (s.complete o).rsSrc = s.rsSrc := by cases o <;> rfl
@[simp] theorem complete_rsDst (o : Option CmdError) : (s.complete o).rsDst = s.rsDst := by cases o <;> rfl
@[simp] theorem complete_rsLen (o : Option CmdError) : (s.complete o).rsLen = s.rsLen := by cases o <;> rfl
@[simp] theorem complete_rsNsym (o : Option CmdError) : (s.complete o).rsNsym = s.rsNsym := by cases o <;> rfl
@[simp] theorem complete_rsOutlen (o : Option CmdError) : (s.complete o).rsOutlen = s.rsOutlen := by cases o <;> rfl
@[simp] theorem complete_decNerrData (o : Option CmdError) : (s.complete o).decNerrData = s.decNerrData := by cases o <;> rfl
@[simp] theorem complete_decNerrMeta (o : Option CmdError) : (s.complete o).decNerrMeta = s.decNerrMeta := by cases o <;> rfl
@[simp] theorem complete_bgRgb (o : Option CmdError) : (s.complete o).bgRgb = s.bgRgb := by cases o <;> rfl
@[simp] theorem complete_pending (o : Option CmdError) : (s.complete o).pending = none := by cases o <;> rfl
@[simp] theorem complete_pbuf (o : Option CmdError) : (s.complete o).pbuf = s.pbuf := by cases o <;> rfl
@[simp] theorem complete_ebuf (o : Option CmdError) : (s.complete o).ebuf = s.ebuf := by cases o <;> rfl
@[simp] theorem complete_fb (o : Option CmdError) : (s.complete o).fb = s.fb := by cases o <;> rfl
@[simp] theorem complete_schedule (o : Option CmdError) : (s.complete o).schedule = s.schedule := by cases o <;> rfl
@[simp] theorem complete_rdata (o : Option CmdError) : (s.complete o).rdata = s.rdata := by cases o <;> rfl
@[simp] theorem complete_epoch (o : Option CmdError) : (s.complete o).epoch = s.epoch := by cases o <;> rfl
@[simp] theorem complete_draws (o : Option CmdError) : (s.complete o).draws = s.draws := by cases o <;> rfl
@[simp] theorem complete_none_err : (s.complete none).err = s.err := rfl
@[simp] theorem complete_none_errCode : (s.complete none).errCode = s.errCode := rfl
@[simp] theorem complete_none_errDetail : (s.complete none).errDetail = s.errDetail := rfl
@[simp] theorem complete_some_err (e : CmdError) : (s.complete (some e)).err = true := rfl
@[simp] theorem complete_some_errCode (e : CmdError) : (s.complete (some e)).errCode = e.code := rfl
@[simp] theorem complete_some_errDetail (e : CmdError) : (s.complete (some e)).errDetail = e.detail := rfl
/-- Completion without error, in the terms of Safety.lean. -/
theorem complete_none_eq : s.complete none = s.completed := rfl
/-- Completion with an error, in the terms of Safety.lean. -/
theorem complete_some_eq (e : CmdError) : s.complete (some e) = s.failed e.code e.detail := rfl

/-! ### `State.accept` -/

@[simp] theorem accept_irqEn (w : Word) : (s.accept w).irqEn = s.irqEn := rfl
@[simp] theorem accept_done (w : Word) : (s.accept w).done = false := rfl
@[simp] theorem accept_err (w : Word) : (s.accept w).err = false := rfl
@[simp] theorem accept_ovr (w : Word) : (s.accept w).ovr = s.ovr := rfl
@[simp] theorem accept_busErr (w : Word) : (s.accept w).busErr = s.busErr := rfl
@[simp] theorem accept_errCode (w : Word) : (s.accept w).errCode = 0 := rfl
@[simp] theorem accept_errDetail (w : Word) : (s.accept w).errDetail = 0 := rfl
@[simp] theorem accept_cmd (w : Word) : (s.accept w).cmd = w := rfl
@[simp] theorem accept_frameW (w : Word) : (s.accept w).frameW = s.frameW := rfl
@[simp] theorem accept_frameH (w : Word) : (s.accept w).frameH = s.frameH := rfl
@[simp] theorem accept_blockW (w : Word) : (s.accept w).blockW = s.blockW := rfl
@[simp] theorem accept_blockH (w : Word) : (s.accept w).blockH = s.blockH := rfl
@[simp] theorem accept_gridCols (w : Word) : (s.accept w).gridCols = s.gridCols := rfl
@[simp] theorem accept_gridRows (w : Word) : (s.accept w).gridRows = s.gridRows := rfl
@[simp] theorem accept_gridN (w : Word) : (s.accept w).gridN = s.gridN := rfl
@[simp] theorem accept_capacity (w : Word) : (s.accept w).capacity = s.capacity := rfl
@[simp] theorem accept_travIdx (w : Word) : (s.accept w).travIdx = s.travIdx := rfl
@[simp] theorem accept_travX (w : Word) : (s.accept w).travX = s.travX := rfl
@[simp] theorem accept_travY (w : Word) : (s.accept w).travY = s.travY := rfl
@[simp] theorem accept_streamLen (w : Word) : (s.accept w).streamLen = s.streamLen := rfl
@[simp] theorem accept_payloadLen (w : Word) : (s.accept w).payloadLen = s.payloadLen := rfl
@[simp] theorem accept_envLen (w : Word) : (s.accept w).envLen = s.envLen := rfl
@[simp] theorem accept_dataLen (w : Word) : (s.accept w).dataLen = s.dataLen := rfl
@[simp] theorem accept_dataNsym (w : Word) : (s.accept w).dataNsym = s.dataNsym := rfl
@[simp] theorem accept_qbyte (w : Word) : (s.accept w).qbyte = s.qbyte := rfl
@[simp] theorem accept_qrgb (w : Word) : (s.accept w).qrgb = s.qrgb := rfl
@[simp] theorem accept_dqRgb (w : Word) : (s.accept w).dqRgb = s.dqRgb := rfl
@[simp] theorem accept_dqByte (w : Word) : (s.accept w).dqByte = s.dqByte := rfl
@[simp] theorem accept_rsSrc (w : Word) : (s.accept w).rsSrc = s.rsSrc := rfl
@[simp] theorem accept_rsDst (w : Word) : (s.accept w).rsDst = s.rsDst := rfl
@[simp] theorem accept_rsLen (w : Word) : (s.accept w).rsLen = s.rsLen := rfl
@[simp] theorem accept_rsNsym (w : Word) : (s.accept w).rsNsym = s.rsNsym := rfl
@[simp] theorem accept_rsOutlen (w : Word) : (s.accept w).rsOutlen = s.rsOutlen := rfl
@[simp] theorem accept_decNerrData (w : Word) : (s.accept w).decNerrData = s.decNerrData := rfl
@[simp] theorem accept_decNerrMeta (w : Word) : (s.accept w).decNerrMeta = s.decNerrMeta := rfl
@[simp] theorem accept_bgRgb (w : Word) : (s.accept w).bgRgb = s.bgRgb := rfl
@[simp] theorem accept_pending (w : Word) : (s.accept w).pending = some w := rfl
@[simp] theorem accept_pbuf (w : Word) : (s.accept w).pbuf = s.pbuf := rfl
@[simp] theorem accept_ebuf (w : Word) : (s.accept w).ebuf = s.ebuf := rfl
@[simp] theorem accept_fb (w : Word) : (s.accept w).fb = s.fb := rfl
@[simp] theorem accept_schedule (w : Word) : (s.accept w).schedule = s.schedule := rfl
@[simp] theorem accept_rdata (w : Word) : (s.accept w).rdata = s.rdata := rfl
@[simp] theorem accept_epoch (w : Word) : (s.accept w).epoch = s.epoch := rfl
@[simp] theorem accept_draws (w : Word) : (s.accept w).draws = s.draws := rfl

/-! ### `State.clearStatus` -/

@[simp] theorem clearStatus_irqEn (v : Word) : (s.clearStatus v).irqEn = s.irqEn := rfl
@[simp] theorem clearStatus_done (v : Word) : (s.clearStatus v).done = (s.done && !v.getLsbD 1) := rfl
@[simp] theorem clearStatus_err (v : Word) : (s.clearStatus v).err = (s.err && !v.getLsbD 2) := rfl
@[simp] theorem clearStatus_ovr (v : Word) : (s.clearStatus v).ovr = (s.ovr && !v.getLsbD 3) := rfl
@[simp] theorem clearStatus_busErr (v : Word) : (s.clearStatus v).busErr = (s.busErr && !v.getLsbD 4) := rfl
@[simp] theorem clearStatus_errCode (v : Word) : (s.clearStatus v).errCode = (if v.getLsbD 2 then 0 else s.errCode) := rfl
@[simp] theorem clearStatus_errDetail (v : Word) : (s.clearStatus v).errDetail = (if v.getLsbD 2 then 0 else s.errDetail) := rfl
@[simp] theorem clearStatus_cmd (v : Word) : (s.clearStatus v).cmd = s.cmd := rfl
@[simp] theorem clearStatus_frameW (v : Word) : (s.clearStatus v).frameW = s.frameW := rfl
@[simp] theorem clearStatus_frameH (v : Word) : (s.clearStatus v).frameH = s.frameH := rfl
@[simp] theorem clearStatus_blockW (v : Word) : (s.clearStatus v).blockW = s.blockW := rfl
@[simp] theorem clearStatus_blockH (v : Word) : (s.clearStatus v).blockH = s.blockH := rfl
@[simp] theorem clearStatus_gridCols (v : Word) : (s.clearStatus v).gridCols = s.gridCols := rfl
@[simp] theorem clearStatus_gridRows (v : Word) : (s.clearStatus v).gridRows = s.gridRows := rfl
@[simp] theorem clearStatus_gridN (v : Word) : (s.clearStatus v).gridN = s.gridN := rfl
@[simp] theorem clearStatus_capacity (v : Word) : (s.clearStatus v).capacity = s.capacity := rfl
@[simp] theorem clearStatus_travIdx (v : Word) : (s.clearStatus v).travIdx = s.travIdx := rfl
@[simp] theorem clearStatus_travX (v : Word) : (s.clearStatus v).travX = s.travX := rfl
@[simp] theorem clearStatus_travY (v : Word) : (s.clearStatus v).travY = s.travY := rfl
@[simp] theorem clearStatus_streamLen (v : Word) : (s.clearStatus v).streamLen = s.streamLen := rfl
@[simp] theorem clearStatus_payloadLen (v : Word) : (s.clearStatus v).payloadLen = s.payloadLen := rfl
@[simp] theorem clearStatus_envLen (v : Word) : (s.clearStatus v).envLen = s.envLen := rfl
@[simp] theorem clearStatus_dataLen (v : Word) : (s.clearStatus v).dataLen = s.dataLen := rfl
@[simp] theorem clearStatus_dataNsym (v : Word) : (s.clearStatus v).dataNsym = s.dataNsym := rfl
@[simp] theorem clearStatus_qbyte (v : Word) : (s.clearStatus v).qbyte = s.qbyte := rfl
@[simp] theorem clearStatus_qrgb (v : Word) : (s.clearStatus v).qrgb = s.qrgb := rfl
@[simp] theorem clearStatus_dqRgb (v : Word) : (s.clearStatus v).dqRgb = s.dqRgb := rfl
@[simp] theorem clearStatus_dqByte (v : Word) : (s.clearStatus v).dqByte = s.dqByte := rfl
@[simp] theorem clearStatus_rsSrc (v : Word) : (s.clearStatus v).rsSrc = s.rsSrc := rfl
@[simp] theorem clearStatus_rsDst (v : Word) : (s.clearStatus v).rsDst = s.rsDst := rfl
@[simp] theorem clearStatus_rsLen (v : Word) : (s.clearStatus v).rsLen = s.rsLen := rfl
@[simp] theorem clearStatus_rsNsym (v : Word) : (s.clearStatus v).rsNsym = s.rsNsym := rfl
@[simp] theorem clearStatus_rsOutlen (v : Word) : (s.clearStatus v).rsOutlen = s.rsOutlen := rfl
@[simp] theorem clearStatus_decNerrData (v : Word) : (s.clearStatus v).decNerrData = s.decNerrData := rfl
@[simp] theorem clearStatus_decNerrMeta (v : Word) : (s.clearStatus v).decNerrMeta = s.decNerrMeta := rfl
@[simp] theorem clearStatus_bgRgb (v : Word) : (s.clearStatus v).bgRgb = s.bgRgb := rfl
@[simp] theorem clearStatus_pending (v : Word) : (s.clearStatus v).pending = s.pending := rfl
@[simp] theorem clearStatus_pbuf (v : Word) : (s.clearStatus v).pbuf = s.pbuf := rfl
@[simp] theorem clearStatus_ebuf (v : Word) : (s.clearStatus v).ebuf = s.ebuf := rfl
@[simp] theorem clearStatus_fb (v : Word) : (s.clearStatus v).fb = s.fb := rfl
@[simp] theorem clearStatus_schedule (v : Word) : (s.clearStatus v).schedule = s.schedule := rfl
@[simp] theorem clearStatus_rdata (v : Word) : (s.clearStatus v).rdata = s.rdata := rfl
@[simp] theorem clearStatus_epoch (v : Word) : (s.clearStatus v).epoch = s.epoch := rfl
@[simp] theorem clearStatus_draws (v : Word) : (s.clearStatus v).draws = s.draws := rfl

/-! ### `State.travSet` -/

@[simp] theorem travSet_irqEn (i : Nat) : (s.travSet i).irqEn = s.irqEn := rfl
@[simp] theorem travSet_done (i : Nat) : (s.travSet i).done = s.done := rfl
@[simp] theorem travSet_err (i : Nat) : (s.travSet i).err = s.err := rfl
@[simp] theorem travSet_ovr (i : Nat) : (s.travSet i).ovr = s.ovr := rfl
@[simp] theorem travSet_busErr (i : Nat) : (s.travSet i).busErr = s.busErr := rfl
@[simp] theorem travSet_errCode (i : Nat) : (s.travSet i).errCode = s.errCode := rfl
@[simp] theorem travSet_errDetail (i : Nat) : (s.travSet i).errDetail = s.errDetail := rfl
@[simp] theorem travSet_cmd (i : Nat) : (s.travSet i).cmd = s.cmd := rfl
@[simp] theorem travSet_frameW (i : Nat) : (s.travSet i).frameW = s.frameW := rfl
@[simp] theorem travSet_frameH (i : Nat) : (s.travSet i).frameH = s.frameH := rfl
@[simp] theorem travSet_blockW (i : Nat) : (s.travSet i).blockW = s.blockW := rfl
@[simp] theorem travSet_blockH (i : Nat) : (s.travSet i).blockH = s.blockH := rfl
@[simp] theorem travSet_gridCols (i : Nat) : (s.travSet i).gridCols = s.gridCols := rfl
@[simp] theorem travSet_gridRows (i : Nat) : (s.travSet i).gridRows = s.gridRows := rfl
@[simp] theorem travSet_gridN (i : Nat) : (s.travSet i).gridN = s.gridN := rfl
@[simp] theorem travSet_capacity (i : Nat) : (s.travSet i).capacity = s.capacity := rfl
@[simp] theorem travSet_travIdx (i : Nat) : (s.travSet i).travIdx = BitVec.ofNat 32 i := rfl
@[simp] theorem travSet_travX (i : Nat) : (s.travSet i).travX = (if i < s.gridN.toNat then BitVec.ofNat 16 (i % s.gridCols.toNat) else 0) := rfl
@[simp] theorem travSet_travY (i : Nat) : (s.travSet i).travY = (if i < s.gridN.toNat then BitVec.ofNat 16 (i / s.gridCols.toNat) else s.gridRows) := rfl
@[simp] theorem travSet_streamLen (i : Nat) : (s.travSet i).streamLen = s.streamLen := rfl
@[simp] theorem travSet_payloadLen (i : Nat) : (s.travSet i).payloadLen = s.payloadLen := rfl
@[simp] theorem travSet_envLen (i : Nat) : (s.travSet i).envLen = s.envLen := rfl
@[simp] theorem travSet_dataLen (i : Nat) : (s.travSet i).dataLen = s.dataLen := rfl
@[simp] theorem travSet_dataNsym (i : Nat) : (s.travSet i).dataNsym = s.dataNsym := rfl
@[simp] theorem travSet_qbyte (i : Nat) : (s.travSet i).qbyte = s.qbyte := rfl
@[simp] theorem travSet_qrgb (i : Nat) : (s.travSet i).qrgb = s.qrgb := rfl
@[simp] theorem travSet_dqRgb (i : Nat) : (s.travSet i).dqRgb = s.dqRgb := rfl
@[simp] theorem travSet_dqByte (i : Nat) : (s.travSet i).dqByte = s.dqByte := rfl
@[simp] theorem travSet_rsSrc (i : Nat) : (s.travSet i).rsSrc = s.rsSrc := rfl
@[simp] theorem travSet_rsDst (i : Nat) : (s.travSet i).rsDst = s.rsDst := rfl
@[simp] theorem travSet_rsLen (i : Nat) : (s.travSet i).rsLen = s.rsLen := rfl
@[simp] theorem travSet_rsNsym (i : Nat) : (s.travSet i).rsNsym = s.rsNsym := rfl
@[simp] theorem travSet_rsOutlen (i : Nat) : (s.travSet i).rsOutlen = s.rsOutlen := rfl
@[simp] theorem travSet_decNerrData (i : Nat) : (s.travSet i).decNerrData = s.decNerrData := rfl
@[simp] theorem travSet_decNerrMeta (i : Nat) : (s.travSet i).decNerrMeta = s.decNerrMeta := rfl
@[simp] theorem travSet_bgRgb (i : Nat) : (s.travSet i).bgRgb = s.bgRgb := rfl
@[simp] theorem travSet_pending (i : Nat) : (s.travSet i).pending = s.pending := rfl
@[simp] theorem travSet_pbuf (i : Nat) : (s.travSet i).pbuf = s.pbuf := rfl
@[simp] theorem travSet_ebuf (i : Nat) : (s.travSet i).ebuf = s.ebuf := rfl
@[simp] theorem travSet_fb (i : Nat) : (s.travSet i).fb = s.fb := rfl
@[simp] theorem travSet_schedule (i : Nat) : (s.travSet i).schedule = s.schedule := rfl
@[simp] theorem travSet_rdata (i : Nat) : (s.travSet i).rdata = s.rdata := rfl
@[simp] theorem travSet_epoch (i : Nat) : (s.travSet i).epoch = s.epoch := rfl
@[simp] theorem travSet_draws (i : Nat) : (s.travSet i).draws = s.draws := rfl

/-! ### `State.commitGrid` -/

@[simp] theorem commitGrid_irqEn (g : Grid) : (s.commitGrid g).irqEn = s.irqEn := rfl
@[simp] theorem commitGrid_done (g : Grid) : (s.commitGrid g).done = s.done := rfl
@[simp] theorem commitGrid_err (g : Grid) : (s.commitGrid g).err = s.err := rfl
@[simp] theorem commitGrid_ovr (g : Grid) : (s.commitGrid g).ovr = s.ovr := rfl
@[simp] theorem commitGrid_busErr (g : Grid) : (s.commitGrid g).busErr = s.busErr := rfl
@[simp] theorem commitGrid_errCode (g : Grid) : (s.commitGrid g).errCode = s.errCode := rfl
@[simp] theorem commitGrid_errDetail (g : Grid) : (s.commitGrid g).errDetail = s.errDetail := rfl
@[simp] theorem commitGrid_cmd (g : Grid) : (s.commitGrid g).cmd = s.cmd := rfl
@[simp] theorem commitGrid_frameW (g : Grid) : (s.commitGrid g).frameW = s.frameW := rfl
@[simp] theorem commitGrid_frameH (g : Grid) : (s.commitGrid g).frameH = s.frameH := rfl
@[simp] theorem commitGrid_blockW (g : Grid) : (s.commitGrid g).blockW = s.blockW := rfl
@[simp] theorem commitGrid_blockH (g : Grid) : (s.commitGrid g).blockH = s.blockH := rfl
@[simp] theorem commitGrid_gridCols (g : Grid) : (s.commitGrid g).gridCols = BitVec.ofNat 16 g.cols := rfl
@[simp] theorem commitGrid_gridRows (g : Grid) : (s.commitGrid g).gridRows = BitVec.ofNat 16 g.rows := rfl
@[simp] theorem commitGrid_gridN (g : Grid) : (s.commitGrid g).gridN = BitVec.ofNat 32 g.n := rfl
@[simp] theorem commitGrid_capacity (g : Grid) : (s.commitGrid g).capacity = BitVec.ofInt 32 g.cap := rfl
@[simp] theorem commitGrid_travIdx (g : Grid) : (s.commitGrid g).travIdx = s.travIdx := rfl
@[simp] theorem commitGrid_travX (g : Grid) : (s.commitGrid g).travX = s.travX := rfl
@[simp] theorem commitGrid_travY (g : Grid) : (s.commitGrid g).travY = s.travY := rfl
@[simp] theorem commitGrid_streamLen (g : Grid) : (s.commitGrid g).streamLen = s.streamLen := rfl
@[simp] theorem commitGrid_payloadLen (g : Grid) : (s.commitGrid g).payloadLen = s.payloadLen := rfl
@[simp] theorem commitGrid_envLen (g : Grid) : (s.commitGrid g).envLen = s.envLen := rfl
@[simp] theorem commitGrid_dataLen (g : Grid) : (s.commitGrid g).dataLen = s.dataLen := rfl
@[simp] theorem commitGrid_dataNsym (g : Grid) : (s.commitGrid g).dataNsym = s.dataNsym := rfl
@[simp] theorem commitGrid_qbyte (g : Grid) : (s.commitGrid g).qbyte = s.qbyte := rfl
@[simp] theorem commitGrid_qrgb (g : Grid) : (s.commitGrid g).qrgb = s.qrgb := rfl
@[simp] theorem commitGrid_dqRgb (g : Grid) : (s.commitGrid g).dqRgb = s.dqRgb := rfl
@[simp] theorem commitGrid_dqByte (g : Grid) : (s.commitGrid g).dqByte = s.dqByte := rfl
@[simp] theorem commitGrid_rsSrc (g : Grid) : (s.commitGrid g).rsSrc = s.rsSrc := rfl
@[simp] theorem commitGrid_rsDst (g : Grid) : (s.commitGrid g).rsDst = s.rsDst := rfl
@[simp] theorem commitGrid_rsLen (g : Grid) : (s.commitGrid g).rsLen = s.rsLen := rfl
@[simp] theorem commitGrid_rsNsym (g : Grid) : (s.commitGrid g).rsNsym = s.rsNsym := rfl
@[simp] theorem commitGrid_rsOutlen (g : Grid) : (s.commitGrid g).rsOutlen = s.rsOutlen := rfl
@[simp] theorem commitGrid_decNerrData (g : Grid) : (s.commitGrid g).decNerrData = s.decNerrData := rfl
@[simp] theorem commitGrid_decNerrMeta (g : Grid) : (s.commitGrid g).decNerrMeta = s.decNerrMeta := rfl
@[simp] theorem commitGrid_bgRgb (g : Grid) : (s.commitGrid g).bgRgb = s.bgRgb := rfl
@[simp] theorem commitGrid_pending (g : Grid) : (s.commitGrid g).pending = s.pending := rfl
@[simp] theorem commitGrid_pbuf (g : Grid) : (s.commitGrid g).pbuf = s.pbuf := rfl
@[simp] theorem commitGrid_ebuf (g : Grid) : (s.commitGrid g).ebuf = s.ebuf := rfl
@[simp] theorem commitGrid_fb (g : Grid) : (s.commitGrid g).fb = s.fb := rfl
@[simp] theorem commitGrid_schedule (g : Grid) : (s.commitGrid g).schedule = s.schedule := rfl
@[simp] theorem commitGrid_rdata (g : Grid) : (s.commitGrid g).rdata = s.rdata := rfl
@[simp] theorem commitGrid_epoch (g : Grid) : (s.commitGrid g).epoch = s.epoch := rfl
@[simp] theorem commitGrid_draws (g : Grid) : (s.commitGrid g).draws = s.draws := rfl

/-! ### `State.commitParsed` -/

@[simp] theorem commitParsed_irqEn (q : Parsed) : (s.commitParsed q).irqEn = s.irqEn := rfl
@[simp] theorem commitParsed_done (q : Parsed) : (s.commitParsed q).done = s.done := rfl
@[simp] theorem commitParsed_err (q : Parsed) : (s.commitParsed q).err = s.err := rfl
@[simp] theorem commitParsed_ovr (q : Parsed) : (s.commitParsed q).ovr = s.ovr := rfl
@[simp] theorem commitParsed_busErr (q : Parsed) : (s.commitParsed q).busErr = s.busErr := rfl
@[simp] theorem commitParsed_errCode (q : Parsed) : (s.commitParsed q).errCode = s.errCode := rfl
@[simp] theorem commitParsed_errDetail (q : Parsed) : (s.commitParsed q).errDetail = s.errDetail := rfl
@[simp] theorem commitParsed_cmd (q : Parsed) : (s.commitParsed q).cmd = s.cmd := rfl
@[simp] theorem commitParsed_frameW (q : Parsed) : (s.commitParsed q).frameW = s.frameW := rfl
@[simp] theorem commitParsed_frameH (q : Parsed) : (s.commitParsed q).frameH = s.frameH := rfl
@[simp] theorem commitParsed_blockW (q : Parsed) : (s.commitParsed q).blockW = s.blockW := rfl
@[simp] theorem commitParsed_blockH (q : Parsed) : (s.commitParsed q).blockH = s.blockH := rfl
@[simp] theorem commitParsed_gridCols (q : Parsed) : (s.commitParsed q).gridCols = s.gridCols := rfl
@[simp] theorem commitParsed_gridRows (q : Parsed) : (s.commitParsed q).gridRows = s.gridRows := rfl
@[simp] theorem commitParsed_gridN (q : Parsed) : (s.commitParsed q).gridN = s.gridN := rfl
@[simp] theorem commitParsed_capacity (q : Parsed) : (s.commitParsed q).capacity = s.capacity := rfl
@[simp] theorem commitParsed_travIdx (q : Parsed) : (s.commitParsed q).travIdx = s.travIdx := rfl
@[simp] theorem commitParsed_travX (q : Parsed) : (s.commitParsed q).travX = s.travX := rfl
@[simp] theorem commitParsed_travY (q : Parsed) : (s.commitParsed q).travY = s.travY := rfl
@[simp] theorem commitParsed_streamLen (q : Parsed) : (s.commitParsed q).streamLen = s.streamLen := rfl
@[simp] theorem commitParsed_payloadLen (q : Parsed) : (s.commitParsed q).payloadLen = BitVec.ofNat 32 q.payload.length := rfl
@[simp] theorem commitParsed_envLen (q : Parsed) : (s.commitParsed q).envLen = s.envLen := rfl
@[simp] theorem commitParsed_dataLen (q : Parsed) : (s.commitParsed q).dataLen = BitVec.ofNat 32 q.dataLen := rfl
@[simp] theorem commitParsed_dataNsym (q : Parsed) : (s.commitParsed q).dataNsym = BitVec.ofNat 8 q.parity := rfl
@[simp] theorem commitParsed_qbyte (q : Parsed) : (s.commitParsed q).qbyte = s.qbyte := rfl
@[simp] theorem commitParsed_qrgb (q : Parsed) : (s.commitParsed q).qrgb = s.qrgb := rfl
@[simp] theorem commitParsed_dqRgb (q : Parsed) : (s.commitParsed q).dqRgb = s.dqRgb := rfl
@[simp] theorem commitParsed_dqByte (q : Parsed) : (s.commitParsed q).dqByte = s.dqByte := rfl
@[simp] theorem commitParsed_rsSrc (q : Parsed) : (s.commitParsed q).rsSrc = s.rsSrc := rfl
@[simp] theorem commitParsed_rsDst (q : Parsed) : (s.commitParsed q).rsDst = s.rsDst := rfl
@[simp] theorem commitParsed_rsLen (q : Parsed) : (s.commitParsed q).rsLen = s.rsLen := rfl
@[simp] theorem commitParsed_rsNsym (q : Parsed) : (s.commitParsed q).rsNsym = s.rsNsym := rfl
@[simp] theorem commitParsed_rsOutlen (q : Parsed) : (s.commitParsed q).rsOutlen = s.rsOutlen := rfl
@[simp] theorem commitParsed_decNerrData (q : Parsed) : (s.commitParsed q).decNerrData = BitVec.ofNat 16 q.dataErrs := rfl
@[simp] theorem commitParsed_decNerrMeta (q : Parsed) : (s.commitParsed q).decNerrMeta = BitVec.ofNat 16 q.metaErrs := rfl
@[simp] theorem commitParsed_bgRgb (q : Parsed) : (s.commitParsed q).bgRgb = s.bgRgb := rfl
@[simp] theorem commitParsed_pending (q : Parsed) : (s.commitParsed q).pending = s.pending := rfl
@[simp] theorem commitParsed_pbuf (q : Parsed) : (s.commitParsed q).pbuf = s.pbuf := rfl
@[simp] theorem commitParsed_ebuf (q : Parsed) : (s.commitParsed q).ebuf = s.ebuf := rfl
@[simp] theorem commitParsed_fb (q : Parsed) : (s.commitParsed q).fb = s.fb := rfl
@[simp] theorem commitParsed_schedule (q : Parsed) : (s.commitParsed q).schedule = s.schedule := rfl
@[simp] theorem commitParsed_rdata (q : Parsed) : (s.commitParsed q).rdata = s.rdata := rfl
@[simp] theorem commitParsed_epoch (q : Parsed) : (s.commitParsed q).epoch = s.epoch := rfl
@[simp] theorem commitParsed_draws (q : Parsed) : (s.commitParsed q).draws = s.draws := rfl

/-! ### `State.setMem` -/

@[simp] theorem setMem_irqEn (sp : Space) (m : Memory) : (s.setMem sp m).irqEn = s.irqEn := by cases sp <;> rfl
@[simp] theorem setMem_done (sp : Space) (m : Memory) : (s.setMem sp m).done = s.done := by cases sp <;> rfl
@[simp] theorem setMem_err (sp : Space) (m : Memory) : (s.setMem sp m).err = s.err := by cases sp <;> rfl
@[simp] theorem setMem_ovr (sp : Space) (m : Memory) : (s.setMem sp m).ovr = s.ovr := by cases sp <;> rfl
@[simp] theorem setMem_busErr (sp : Space) (m : Memory) : (s.setMem sp m).busErr = s.busErr := by cases sp <;> rfl
@[simp] theorem setMem_errCode (sp : Space) (m : Memory) : (s.setMem sp m).errCode = s.errCode := by cases sp <;> rfl
@[simp] theorem setMem_errDetail (sp : Space) (m : Memory) : (s.setMem sp m).errDetail = s.errDetail := by cases sp <;> rfl
@[simp] theorem setMem_cmd (sp : Space) (m : Memory) : (s.setMem sp m).cmd = s.cmd := by cases sp <;> rfl
@[simp] theorem setMem_frameW (sp : Space) (m : Memory) : (s.setMem sp m).frameW = s.frameW := by cases sp <;> rfl
@[simp] theorem setMem_frameH (sp : Space) (m : Memory) : (s.setMem sp m).frameH = s.frameH := by cases sp <;> rfl
@[simp] theorem setMem_blockW (sp : Space) (m : Memory) : (s.setMem sp m).blockW = s.blockW := by cases sp <;> rfl
@[simp] theorem setMem_blockH (sp : Space) (m : Memory) : (s.setMem sp m).blockH = s.blockH := by cases sp <;> rfl
@[simp] theorem setMem_gridCols (sp : Space) (m : Memory) : (s.setMem sp m).gridCols = s.gridCols := by cases sp <;> rfl
@[simp] theorem setMem_gridRows (sp : Space) (m : Memory) : (s.setMem sp m).gridRows = s.gridRows := by cases sp <;> rfl
@[simp] theorem setMem_gridN (sp : Space) (m : Memory) : (s.setMem sp m).gridN = s.gridN := by cases sp <;> rfl
@[simp] theorem setMem_capacity (sp : Space) (m : Memory) : (s.setMem sp m).capacity = s.capacity := by cases sp <;> rfl
@[simp] theorem setMem_travIdx (sp : Space) (m : Memory) : (s.setMem sp m).travIdx = s.travIdx := by cases sp <;> rfl
@[simp] theorem setMem_travX (sp : Space) (m : Memory) : (s.setMem sp m).travX = s.travX := by cases sp <;> rfl
@[simp] theorem setMem_travY (sp : Space) (m : Memory) : (s.setMem sp m).travY = s.travY := by cases sp <;> rfl
@[simp] theorem setMem_streamLen (sp : Space) (m : Memory) : (s.setMem sp m).streamLen = s.streamLen := by cases sp <;> rfl
@[simp] theorem setMem_payloadLen (sp : Space) (m : Memory) : (s.setMem sp m).payloadLen = s.payloadLen := by cases sp <;> rfl
@[simp] theorem setMem_envLen (sp : Space) (m : Memory) : (s.setMem sp m).envLen = s.envLen := by cases sp <;> rfl
@[simp] theorem setMem_dataLen (sp : Space) (m : Memory) : (s.setMem sp m).dataLen = s.dataLen := by cases sp <;> rfl
@[simp] theorem setMem_dataNsym (sp : Space) (m : Memory) : (s.setMem sp m).dataNsym = s.dataNsym := by cases sp <;> rfl
@[simp] theorem setMem_qbyte (sp : Space) (m : Memory) : (s.setMem sp m).qbyte = s.qbyte := by cases sp <;> rfl
@[simp] theorem setMem_qrgb (sp : Space) (m : Memory) : (s.setMem sp m).qrgb = s.qrgb := by cases sp <;> rfl
@[simp] theorem setMem_dqRgb (sp : Space) (m : Memory) : (s.setMem sp m).dqRgb = s.dqRgb := by cases sp <;> rfl
@[simp] theorem setMem_dqByte (sp : Space) (m : Memory) : (s.setMem sp m).dqByte = s.dqByte := by cases sp <;> rfl
@[simp] theorem setMem_rsSrc (sp : Space) (m : Memory) : (s.setMem sp m).rsSrc = s.rsSrc := by cases sp <;> rfl
@[simp] theorem setMem_rsDst (sp : Space) (m : Memory) : (s.setMem sp m).rsDst = s.rsDst := by cases sp <;> rfl
@[simp] theorem setMem_rsLen (sp : Space) (m : Memory) : (s.setMem sp m).rsLen = s.rsLen := by cases sp <;> rfl
@[simp] theorem setMem_rsNsym (sp : Space) (m : Memory) : (s.setMem sp m).rsNsym = s.rsNsym := by cases sp <;> rfl
@[simp] theorem setMem_rsOutlen (sp : Space) (m : Memory) : (s.setMem sp m).rsOutlen = s.rsOutlen := by cases sp <;> rfl
@[simp] theorem setMem_decNerrData (sp : Space) (m : Memory) : (s.setMem sp m).decNerrData = s.decNerrData := by cases sp <;> rfl
@[simp] theorem setMem_decNerrMeta (sp : Space) (m : Memory) : (s.setMem sp m).decNerrMeta = s.decNerrMeta := by cases sp <;> rfl
@[simp] theorem setMem_bgRgb (sp : Space) (m : Memory) : (s.setMem sp m).bgRgb = s.bgRgb := by cases sp <;> rfl
@[simp] theorem setMem_pending (sp : Space) (m : Memory) : (s.setMem sp m).pending = s.pending := by cases sp <;> rfl
@[simp] theorem setMem_schedule (sp : Space) (m : Memory) : (s.setMem sp m).schedule = s.schedule := by cases sp <;> rfl
@[simp] theorem setMem_rdata (sp : Space) (m : Memory) : (s.setMem sp m).rdata = s.rdata := by cases sp <;> rfl
@[simp] theorem setMem_epoch (sp : Space) (m : Memory) : (s.setMem sp m).epoch = s.epoch := by cases sp <;> rfl
@[simp] theorem setMem_draws (sp : Space) (m : Memory) : (s.setMem sp m).draws = s.draws := by cases sp <;> rfl
@[simp] theorem setMem_mem_self (sp : Space) (m : Memory) : (s.setMem sp m).mem sp = m := by cases sp <;> rfl
/-- Setting one buffer leaves the others. -/
theorem setMem_mem_of_ne (sp sp' : Space) (m : Memory) (h : sp' ≠ sp) : (s.setMem sp m).mem sp' = s.mem sp' := by
  cases sp <;> cases sp' <;> first | rfl | exact absurd rfl h

/-! ### `State.applyStore` -/

@[simp] theorem applyStore_irqEn (st : Store) : (s.applyStore st).irqEn = s.irqEn := setMem_irqEn s st.space _
@[simp] theorem applyStore_done (st : Store) : (s.applyStore st).done = s.done := setMem_done s st.space _
@[simp] theorem applyStore_err (st : Store) : (s.applyStore st).err = s.err := setMem_err s st.space _
@[simp] theorem applyStore_ovr (st : Store) : (s.applyStore st).ovr = s.ovr := setMem_ovr s st.space _
@[simp] theorem applyStore_busErr (st : Store) : (s.applyStore st).busErr = s.busErr := setMem_busErr s st.space _
@[simp] theorem applyStore_errCode (st : Store) : (s.applyStore st).errCode = s.errCode := setMem_errCode s st.space _
@[simp] theorem applyStore_errDetail (st : Store) : (s.applyStore st).errDetail = s.errDetail := setMem_errDetail s st.space _
@[simp] theorem applyStore_cmd (st : Store) : (s.applyStore st).cmd = s.cmd := setMem_cmd s st.space _
@[simp] theorem applyStore_frameW (st : Store) : (s.applyStore st).frameW = s.frameW := setMem_frameW s st.space _
@[simp] theorem applyStore_frameH (st : Store) : (s.applyStore st).frameH = s.frameH := setMem_frameH s st.space _
@[simp] theorem applyStore_blockW (st : Store) : (s.applyStore st).blockW = s.blockW := setMem_blockW s st.space _
@[simp] theorem applyStore_blockH (st : Store) : (s.applyStore st).blockH = s.blockH := setMem_blockH s st.space _
@[simp] theorem applyStore_gridCols (st : Store) : (s.applyStore st).gridCols = s.gridCols := setMem_gridCols s st.space _
@[simp] theorem applyStore_gridRows (st : Store) : (s.applyStore st).gridRows = s.gridRows := setMem_gridRows s st.space _
@[simp] theorem applyStore_gridN (st : Store) : (s.applyStore st).gridN = s.gridN := setMem_gridN s st.space _
@[simp] theorem applyStore_capacity (st : Store) : (s.applyStore st).capacity = s.capacity := setMem_capacity s st.space _
@[simp] theorem applyStore_travIdx (st : Store) : (s.applyStore st).travIdx = s.travIdx := setMem_travIdx s st.space _
@[simp] theorem applyStore_travX (st : Store) : (s.applyStore st).travX = s.travX := setMem_travX s st.space _
@[simp] theorem applyStore_travY (st : Store) : (s.applyStore st).travY = s.travY := setMem_travY s st.space _
@[simp] theorem applyStore_streamLen (st : Store) : (s.applyStore st).streamLen = s.streamLen := setMem_streamLen s st.space _
@[simp] theorem applyStore_payloadLen (st : Store) : (s.applyStore st).payloadLen = s.payloadLen := setMem_payloadLen s st.space _
@[simp] theorem applyStore_envLen (st : Store) : (s.applyStore st).envLen = s.envLen := setMem_envLen s st.space _
@[simp] theorem applyStore_dataLen (st : Store) : (s.applyStore st).dataLen = s.dataLen := setMem_dataLen s st.space _
@[simp] theorem applyStore_dataNsym (st : Store) : (s.applyStore st).dataNsym = s.dataNsym := setMem_dataNsym s st.space _
@[simp] theorem applyStore_qbyte (st : Store) : (s.applyStore st).qbyte = s.qbyte := setMem_qbyte s st.space _
@[simp] theorem applyStore_qrgb (st : Store) : (s.applyStore st).qrgb = s.qrgb := setMem_qrgb s st.space _
@[simp] theorem applyStore_dqRgb (st : Store) : (s.applyStore st).dqRgb = s.dqRgb := setMem_dqRgb s st.space _
@[simp] theorem applyStore_dqByte (st : Store) : (s.applyStore st).dqByte = s.dqByte := setMem_dqByte s st.space _
@[simp] theorem applyStore_rsSrc (st : Store) : (s.applyStore st).rsSrc = s.rsSrc := setMem_rsSrc s st.space _
@[simp] theorem applyStore_rsDst (st : Store) : (s.applyStore st).rsDst = s.rsDst := setMem_rsDst s st.space _
@[simp] theorem applyStore_rsLen (st : Store) : (s.applyStore st).rsLen = s.rsLen := setMem_rsLen s st.space _
@[simp] theorem applyStore_rsNsym (st : Store) : (s.applyStore st).rsNsym = s.rsNsym := setMem_rsNsym s st.space _
@[simp] theorem applyStore_rsOutlen (st : Store) : (s.applyStore st).rsOutlen = s.rsOutlen := setMem_rsOutlen s st.space _
@[simp] theorem applyStore_decNerrData (st : Store) : (s.applyStore st).decNerrData = s.decNerrData := setMem_decNerrData s st.space _
@[simp] theorem applyStore_decNerrMeta (st : Store) : (s.applyStore st).decNerrMeta = s.decNerrMeta := setMem_decNerrMeta s st.space _
@[simp] theorem applyStore_bgRgb (st : Store) : (s.applyStore st).bgRgb = s.bgRgb := setMem_bgRgb s st.space _
@[simp] theorem applyStore_pending (st : Store) : (s.applyStore st).pending = s.pending := setMem_pending s st.space _
@[simp] theorem applyStore_schedule (st : Store) : (s.applyStore st).schedule = s.schedule := setMem_schedule s st.space _
@[simp] theorem applyStore_rdata (st : Store) : (s.applyStore st).rdata = s.rdata := setMem_rdata s st.space _
@[simp] theorem applyStore_epoch (st : Store) : (s.applyStore st).epoch = s.epoch := setMem_epoch s st.space _
@[simp] theorem applyStore_draws (st : Store) : (s.applyStore st).draws = s.draws := setMem_draws s st.space _

/-! ### `State.applyStores` -/

/-- A field that one store keeps, a list of stores keeps. -/
theorem applyStores_keeps {α : Type} (f : State → α) (h : ∀ (s : State) (st : Store), f (s.applyStore st) = f s)
    (s : State) (sts : List Store) : f (s.applyStores sts) = f s := by
  induction sts generalizing s with
  | nil => rfl
  | cons st sts ih => exact (ih (s.applyStore st)).trans (h s st)

@[simp] theorem applyStores_nil : s.applyStores [] = s := rfl
@[simp] theorem applyStores_cons (st : Store) (sts : List Store) :
    s.applyStores (st :: sts) = (s.applyStore st).applyStores sts := rfl
@[simp] theorem applyStores_irqEn (sts : List Store) : (s.applyStores sts).irqEn = s.irqEn :=
  applyStores_keeps State.irqEn applyStore_irqEn s sts
@[simp] theorem applyStores_done (sts : List Store) : (s.applyStores sts).done = s.done :=
  applyStores_keeps State.done applyStore_done s sts
@[simp] theorem applyStores_err (sts : List Store) : (s.applyStores sts).err = s.err :=
  applyStores_keeps State.err applyStore_err s sts
@[simp] theorem applyStores_ovr (sts : List Store) : (s.applyStores sts).ovr = s.ovr :=
  applyStores_keeps State.ovr applyStore_ovr s sts
@[simp] theorem applyStores_busErr (sts : List Store) : (s.applyStores sts).busErr = s.busErr :=
  applyStores_keeps State.busErr applyStore_busErr s sts
@[simp] theorem applyStores_errCode (sts : List Store) : (s.applyStores sts).errCode = s.errCode :=
  applyStores_keeps State.errCode applyStore_errCode s sts
@[simp] theorem applyStores_errDetail (sts : List Store) : (s.applyStores sts).errDetail = s.errDetail :=
  applyStores_keeps State.errDetail applyStore_errDetail s sts
@[simp] theorem applyStores_cmd (sts : List Store) : (s.applyStores sts).cmd = s.cmd :=
  applyStores_keeps State.cmd applyStore_cmd s sts
@[simp] theorem applyStores_frameW (sts : List Store) : (s.applyStores sts).frameW = s.frameW :=
  applyStores_keeps State.frameW applyStore_frameW s sts
@[simp] theorem applyStores_frameH (sts : List Store) : (s.applyStores sts).frameH = s.frameH :=
  applyStores_keeps State.frameH applyStore_frameH s sts
@[simp] theorem applyStores_blockW (sts : List Store) : (s.applyStores sts).blockW = s.blockW :=
  applyStores_keeps State.blockW applyStore_blockW s sts
@[simp] theorem applyStores_blockH (sts : List Store) : (s.applyStores sts).blockH = s.blockH :=
  applyStores_keeps State.blockH applyStore_blockH s sts
@[simp] theorem applyStores_gridCols (sts : List Store) : (s.applyStores sts).gridCols = s.gridCols :=
  applyStores_keeps State.gridCols applyStore_gridCols s sts
@[simp] theorem applyStores_gridRows (sts : List Store) : (s.applyStores sts).gridRows = s.gridRows :=
  applyStores_keeps State.gridRows applyStore_gridRows s sts
@[simp] theorem applyStores_gridN (sts : List Store) : (s.applyStores sts).gridN = s.gridN :=
  applyStores_keeps State.gridN applyStore_gridN s sts
@[simp] theorem applyStores_capacity (sts : List Store) : (s.applyStores sts).capacity = s.capacity :=
  applyStores_keeps State.capacity applyStore_capacity s sts
@[simp] theorem applyStores_travIdx (sts : List Store) : (s.applyStores sts).travIdx = s.travIdx :=
  applyStores_keeps State.travIdx applyStore_travIdx s sts
@[simp] theorem applyStores_travX (sts : List Store) : (s.applyStores sts).travX = s.travX :=
  applyStores_keeps State.travX applyStore_travX s sts
@[simp] theorem applyStores_travY (sts : List Store) : (s.applyStores sts).travY = s.travY :=
  applyStores_keeps State.travY applyStore_travY s sts
@[simp] theorem applyStores_streamLen (sts : List Store) : (s.applyStores sts).streamLen = s.streamLen :=
  applyStores_keeps State.streamLen applyStore_streamLen s sts
@[simp] theorem applyStores_payloadLen (sts : List Store) : (s.applyStores sts).payloadLen = s.payloadLen :=
  applyStores_keeps State.payloadLen applyStore_payloadLen s sts
@[simp] theorem applyStores_envLen (sts : List Store) : (s.applyStores sts).envLen = s.envLen :=
  applyStores_keeps State.envLen applyStore_envLen s sts
@[simp] theorem applyStores_dataLen (sts : List Store) : (s.applyStores sts).dataLen = s.dataLen :=
  applyStores_keeps State.dataLen applyStore_dataLen s sts
@[simp] theorem applyStores_dataNsym (sts : List Store) : (s.applyStores sts).dataNsym = s.dataNsym :=
  applyStores_keeps State.dataNsym applyStore_dataNsym s sts
@[simp] theorem applyStores_qbyte (sts : List Store) : (s.applyStores sts).qbyte = s.qbyte :=
  applyStores_keeps State.qbyte applyStore_qbyte s sts
@[simp] theorem applyStores_qrgb (sts : List Store) : (s.applyStores sts).qrgb = s.qrgb :=
  applyStores_keeps State.qrgb applyStore_qrgb s sts
@[simp] theorem applyStores_dqRgb (sts : List Store) : (s.applyStores sts).dqRgb = s.dqRgb :=
  applyStores_keeps State.dqRgb applyStore_dqRgb s sts
@[simp] theorem applyStores_dqByte (sts : List Store) : (s.applyStores sts).dqByte = s.dqByte :=
  applyStores_keeps State.dqByte applyStore_dqByte s sts
@[simp] theorem applyStores_rsSrc (sts : List Store) : (s.applyStores sts).rsSrc = s.rsSrc :=
  applyStores_keeps State.rsSrc applyStore_rsSrc s sts
@[simp] theorem applyStores_rsDst (sts : List Store) : (s.applyStores sts).rsDst = s.rsDst :=
  applyStores_keeps State.rsDst applyStore_rsDst s sts
@[simp] theorem applyStores_rsLen (sts : List Store) : (s.applyStores sts).rsLen = s.rsLen :=
  applyStores_keeps State.rsLen applyStore_rsLen s sts
@[simp] theorem applyStores_rsNsym (sts : List Store) : (s.applyStores sts).rsNsym = s.rsNsym :=
  applyStores_keeps State.rsNsym applyStore_rsNsym s sts
@[simp] theorem applyStores_rsOutlen (sts : List Store) : (s.applyStores sts).rsOutlen = s.rsOutlen :=
  applyStores_keeps State.rsOutlen applyStore_rsOutlen s sts
@[simp] theorem applyStores_decNerrData (sts : List Store) : (s.applyStores sts).decNerrData = s.decNerrData :=
  applyStores_keeps State.decNerrData applyStore_decNerrData s sts
@[simp] theorem applyStores_decNerrMeta (sts : List Store) : (s.applyStores sts).decNerrMeta = s.decNerrMeta :=
  applyStores_keeps State.decNerrMeta applyStore_decNerrMeta s sts
@[simp] theorem applyStores_bgRgb (sts : List Store) : (s.applyStores sts).bgRgb = s.bgRgb :=
  applyStores_keeps State.bgRgb applyStore_bgRgb s sts
@[simp] theorem applyStores_pending (sts : List Store) : (s.applyStores sts).pending = s.pending :=
  applyStores_keeps State.pending applyStore_pending s sts
@[simp] theorem applyStores_schedule (sts : List Store) : (s.applyStores sts).schedule = s.schedule :=
  applyStores_keeps State.schedule applyStore_schedule s sts
@[simp] theorem applyStores_rdata (sts : List Store) : (s.applyStores sts).rdata = s.rdata :=
  applyStores_keeps State.rdata applyStore_rdata s sts
@[simp] theorem applyStores_epoch (sts : List Store) : (s.applyStores sts).epoch = s.epoch :=
  applyStores_keeps State.epoch applyStore_epoch s sts
@[simp] theorem applyStores_draws (sts : List Store) : (s.applyStores sts).draws = s.draws :=
  applyStores_keeps State.draws applyStore_draws s sts

/-! ### `State.resetRegs` -/

@[simp] theorem resetRegs_pbuf (P : Params) : (s.resetRegs P).pbuf = s.pbuf := rfl
@[simp] theorem resetRegs_ebuf (P : Params) : (s.resetRegs P).ebuf = s.ebuf := rfl
@[simp] theorem resetRegs_fb (P : Params) : (s.resetRegs P).fb = s.fb := rfl
@[simp] theorem resetRegs_schedule (P : Params) : (s.resetRegs P).schedule = s.schedule := rfl
@[simp] theorem resetRegs_rdata (P : Params) : (s.resetRegs P).rdata = s.rdata := rfl
@[simp] theorem resetRegs_epoch (P : Params) : (s.resetRegs P).epoch = s.epoch := rfl
@[simp] theorem resetRegs_draws (P : Params) : (s.resetRegs P).draws = s.draws := rfl
@[simp] theorem resetRegs_irqEn (P : Params) : (s.resetRegs P).irqEn = State.reset.irqEn := rfl
@[simp] theorem resetRegs_done (P : Params) : (s.resetRegs P).done = State.reset.done := rfl
@[simp] theorem resetRegs_err (P : Params) : (s.resetRegs P).err = State.reset.err := rfl
@[simp] theorem resetRegs_ovr (P : Params) : (s.resetRegs P).ovr = State.reset.ovr := rfl
@[simp] theorem resetRegs_busErr (P : Params) : (s.resetRegs P).busErr = State.reset.busErr := rfl
@[simp] theorem resetRegs_errCode (P : Params) : (s.resetRegs P).errCode = State.reset.errCode := rfl
@[simp] theorem resetRegs_errDetail (P : Params) : (s.resetRegs P).errDetail = State.reset.errDetail := rfl
@[simp] theorem resetRegs_cmd (P : Params) : (s.resetRegs P).cmd = State.reset.cmd := rfl
@[simp] theorem resetRegs_frameW (P : Params) : (s.resetRegs P).frameW = State.reset.frameW := rfl
@[simp] theorem resetRegs_frameH (P : Params) : (s.resetRegs P).frameH = State.reset.frameH := rfl
@[simp] theorem resetRegs_blockW (P : Params) : (s.resetRegs P).blockW = State.reset.blockW := rfl
@[simp] theorem resetRegs_blockH (P : Params) : (s.resetRegs P).blockH = State.reset.blockH := rfl
@[simp] theorem resetRegs_gridCols (P : Params) : (s.resetRegs P).gridCols = State.reset.gridCols := rfl
@[simp] theorem resetRegs_gridRows (P : Params) : (s.resetRegs P).gridRows = State.reset.gridRows := rfl
@[simp] theorem resetRegs_gridN (P : Params) : (s.resetRegs P).gridN = State.reset.gridN := rfl
@[simp] theorem resetRegs_capacity (P : Params) : (s.resetRegs P).capacity = State.reset.capacity := rfl
@[simp] theorem resetRegs_travIdx (P : Params) : (s.resetRegs P).travIdx = State.reset.travIdx := rfl
@[simp] theorem resetRegs_travX (P : Params) : (s.resetRegs P).travX = State.reset.travX := rfl
@[simp] theorem resetRegs_travY (P : Params) : (s.resetRegs P).travY = State.reset.travY := rfl
@[simp] theorem resetRegs_streamLen (P : Params) : (s.resetRegs P).streamLen = State.reset.streamLen := rfl
@[simp] theorem resetRegs_payloadLen (P : Params) : (s.resetRegs P).payloadLen = State.reset.payloadLen := rfl
@[simp] theorem resetRegs_envLen (P : Params) : (s.resetRegs P).envLen = State.reset.envLen := rfl
@[simp] theorem resetRegs_dataLen (P : Params) : (s.resetRegs P).dataLen = State.reset.dataLen := rfl
@[simp] theorem resetRegs_dataNsym (P : Params) : (s.resetRegs P).dataNsym = State.reset.dataNsym := rfl
@[simp] theorem resetRegs_qbyte (P : Params) : (s.resetRegs P).qbyte = State.reset.qbyte := rfl
@[simp] theorem resetRegs_qrgb (P : Params) : (s.resetRegs P).qrgb = State.reset.qrgb := rfl
@[simp] theorem resetRegs_dqRgb (P : Params) : (s.resetRegs P).dqRgb = State.reset.dqRgb := rfl
@[simp] theorem resetRegs_dqByte (P : Params) : (s.resetRegs P).dqByte = State.reset.dqByte := rfl
@[simp] theorem resetRegs_rsSrc (P : Params) : (s.resetRegs P).rsSrc = State.reset.rsSrc := rfl
@[simp] theorem resetRegs_rsDst (P : Params) : (s.resetRegs P).rsDst = State.reset.rsDst := rfl
@[simp] theorem resetRegs_rsLen (P : Params) : (s.resetRegs P).rsLen = State.reset.rsLen := rfl
@[simp] theorem resetRegs_rsNsym (P : Params) : (s.resetRegs P).rsNsym = State.reset.rsNsym := rfl
@[simp] theorem resetRegs_rsOutlen (P : Params) : (s.resetRegs P).rsOutlen = State.reset.rsOutlen := rfl
@[simp] theorem resetRegs_decNerrData (P : Params) : (s.resetRegs P).decNerrData = State.reset.decNerrData := rfl
@[simp] theorem resetRegs_decNerrMeta (P : Params) : (s.resetRegs P).decNerrMeta = State.reset.decNerrMeta := rfl
@[simp] theorem resetRegs_bgRgb (P : Params) : (s.resetRegs P).bgRgb = P.bgReset := rfl
@[simp] theorem resetRegs_pending (P : Params) : (s.resetRegs P).pending = State.reset.pending := rfl

/-! ### the buffers under updates that do not write them -/

@[simp] theorem complete_mem (o : Option CmdError) (sp : Space) : (s.complete o).mem sp = s.mem sp := by cases o <;> cases sp <;> rfl
@[simp] theorem accept_mem (w : Word) (sp : Space) : (s.accept w).mem sp = s.mem sp := by cases sp <;> rfl
@[simp] theorem clearStatus_mem (v : Word) (sp : Space) : (s.clearStatus v).mem sp = s.mem sp := by cases sp <;> rfl
@[simp] theorem travSet_mem (i : Nat) (sp : Space) : (s.travSet i).mem sp = s.mem sp := by cases sp <;> rfl
@[simp] theorem commitGrid_mem (g : Grid) (sp : Space) : (s.commitGrid g).mem sp = s.mem sp := by cases sp <;> rfl
@[simp] theorem commitParsed_mem (q : Parsed) (sp : Space) : (s.commitParsed q).mem sp = s.mem sp := by cases sp <;> rfl
@[simp] theorem resetRegs_mem (P : Params) (sp : Space) : (s.resetRegs P).mem sp = s.mem sp := by cases sp <;> rfl

end Sys2Proof.Machine
end

