-- ==== Sys2Proof/Laws/Memory.lean ====
section
/-! SUPPORT. What storing and reading buffer bytes does: a read after a store, the canonical form kept, and the same said once
for a list of stores. None of the read laws needs the canonical form. -/

namespace Sys2Proof.Machine

/-! ### One buffer -/

theorem Memory.load?_append (a : Nat) (m n : Memory) :
    Memory.load? a (m ++ n) = (Memory.load? a m).or (Memory.load? a n) := by
  induction m with
  | nil => rfl
  | cons c m ih =>
    simp only [List.cons_append, Memory.load?]
    split <;> simp [ih]

theorem Memory.load?_cells (a off : Nat) (bs : List Byte) :
    Memory.load? a (Memory.cells off bs) = if off ≤ a then bs[a - off]? else none := by
  induction bs generalizing off with
  | nil => simp [Memory.cells, Memory.load?]
  | cons b bs ih =>
    simp only [Memory.cells, Memory.load?, ih]
    by_cases h : off = a
    · subst h; simp
    · by_cases h2 : off ≤ a
      · have h3 : off + 1 ≤ a := by omega
        rw [if_neg h, if_pos h3, if_pos h2]
        have : a - off = (a - (off + 1)) + 1 := by omega
        rw [this, List.getElem?_cons_succ]
      · rw [if_neg h, if_neg (by omega), if_neg h2]

/-- A read after a store: the stored byte inside the range, the old contents outside. -/
theorem Memory.load?_store (off : Nat) (bs : List Byte) (m : Memory) (a : Nat) :
    (m.store off bs).load? a = if off ≤ a ∧ a < off + bs.length then bs[a - off]? else m.load? a := by
  unfold Memory.store
  induction m with
  | nil =>
    simp only [Memory.splice, Memory.load?_cells, Memory.load?]
    by_cases h : off ≤ a
    · by_cases h2 : a < off + bs.length
      · simp [h, h2]
      · simp only [h, h2, and_false, if_true, if_false]
        exact List.getElem?_eq_none (by omega)
    · simp [h]
  | cons c m ih =>
    simp only [Memory.splice]
    split
    · rename_i hlt
      simp only [Memory.load?, ih]
      by_cases h : c.1 = a
      · have : ¬ (off ≤ a ∧ a < off + bs.length) := by omega
        simp [h, this]
      · simp [h]
    · split
      · rename_i hge hlt
        rw [ih]
        by_cases h : off ≤ a ∧ a < off + bs.length
        · simp [h]
        · have : ¬ c.1 = a := by omega
          simp [h, Memory.load?, this]
      · rename_i hge hstop
        rw [Memory.load?_append, Memory.load?_cells]
        by_cases h : off ≤ a ∧ a < off + bs.length
        · have h3 : a - off < bs.length := by omega
          simp [h, List.getElem?_eq_getElem h3]
        · by_cases h2 : off ≤ a
          · have h3 : bs[a - off]? = none := List.getElem?_eq_none (by omega)
            rw [if_pos h2, h3, if_neg h]; rfl
          · rw [if_neg h2, if_neg h]; rfl

theorem Memory.mem_cells (off : Nat) (bs : List Byte) (c : Host.Cell) (h : c ∈ Memory.cells off bs) :
    off ≤ c.1 ∧ c.1 < off + bs.length := by
  induction bs generalizing off with
  | nil => simp [Memory.cells] at h
  | cons b bs ih =>
    simp only [Memory.cells, List.mem_cons] at h
    rcases h with rfl | h
    · simp
    · have := ih (off + 1) h
      simp only [List.length_cons]; omega

theorem Memory.wf_cells (off : Nat) (bs : List Byte) : (Memory.cells off bs).wf := by
  induction bs generalizing off with
  | nil => simp [Memory.cells, Memory.wf]
  | cons b bs ih =>
    refine List.pairwise_cons.2 ⟨fun c hc => ?_, ih (off + 1)⟩
    have := Memory.mem_cells (off + 1) bs c hc
    show off < c.1; omega

/-- What a store lists: an old cell outside the range, or a cell inside it. -/
theorem Memory.mem_store (off : Nat) (bs : List Byte) (m : Memory) (c : Host.Cell) (h : c ∈ m.store off bs) :
    c ∈ m ∨ (off ≤ c.1 ∧ c.1 < off + bs.length) := by
  unfold Memory.store at h
  induction m with
  | nil => exact .inr (Memory.mem_cells off bs c h)
  | cons d m ih =>
    simp only [Memory.splice] at h
    split at h
    · rcases List.mem_cons.1 h with rfl | h
      · exact .inl List.mem_cons_self
      · exact (ih h).imp_left (List.mem_cons_of_mem d)
    · split at h
      · exact (ih h).imp_left (List.mem_cons_of_mem d)
      · rcases List.mem_append.1 h with h | h
        · exact .inr (Memory.mem_cells off bs c h)
        · exact .inl h

/-- A store keeps the canonical form. -/
theorem Memory.wf_store (off : Nat) (bs : List Byte) (m : Memory) (h : m.wf) : (m.store off bs).wf := by
  induction m with
  | nil => exact Memory.wf_cells off bs
  | cons d m ih =>
    obtain ⟨hd, hm⟩ := List.pairwise_cons.1 h
    have hmem := Memory.mem_store off bs m
    have hwf := ih hm
    simp only [Memory.store, Memory.splice] at hmem hwf ⊢
    split
    · rename_i hlt
      refine List.pairwise_cons.2 ⟨fun c hc => ?_, hwf⟩
      rcases hmem c hc with hc | hc
      · exact hd c hc
      · omega
    · split
      · exact hwf
      · rename_i hge hstop
        refine List.pairwise_append.2 ⟨Memory.wf_cells off bs, h, fun c hc e he => ?_⟩
        have := Memory.mem_cells off bs c hc
        rcases List.mem_cons.1 he with rfl | he
        · omega
        · have := hd e he; omega

/-- A store inside a space keeps canonical form and bounds. -/
theorem Memory.ok_store (size off : Nat) (bs : List Byte) (m : Memory) (h : m.ok size)
    (hin : bs = [] ∨ off + bs.length ≤ size) : (m.store off bs).ok size := by
  refine ⟨Memory.wf_store off bs m h.1, fun c hc => ?_⟩
  rcases Memory.mem_store off bs m c hc with hc | hc
  · exact h.2 c hc
  · rcases hin with rfl | hin
    · simp at hc; omega
    · omega

/-! ### The buffers in the state -/

/-- A byte's value depends on its buffer and on the epoch only. -/
theorem State.loadByte_congr {s t : State} (sp : Space) (a : Nat) (hm : t.mem sp = s.mem sp)
    (he : t.epoch = s.epoch) : t.loadByte sp a = s.loadByte sp a := by
  simp only [State.loadByte, hm, he]

@[simp] theorem complete_loadByte (s : State) (o : Option CmdError) (sp : Space) (a : Nat) :
    (s.complete o).loadByte sp a = s.loadByte sp a := State.loadByte_congr sp a (by simp) (by simp)
@[simp] theorem accept_loadByte (s : State) (w : Word) (sp : Space) (a : Nat) :
    (s.accept w).loadByte sp a = s.loadByte sp a := State.loadByte_congr sp a (by simp) (by simp)
@[simp] theorem clearStatus_loadByte (s : State) (v : Word) (sp : Space) (a : Nat) :
    (s.clearStatus v).loadByte sp a = s.loadByte sp a := State.loadByte_congr sp a (by simp) (by simp)
@[simp] theorem travSet_loadByte (s : State) (i : Nat) (sp : Space) (a : Nat) :
    (s.travSet i).loadByte sp a = s.loadByte sp a := State.loadByte_congr sp a (by simp) (by simp)
@[simp] theorem commitGrid_loadByte (s : State) (g : Grid) (sp : Space) (a : Nat) :
    (s.commitGrid g).loadByte sp a = s.loadByte sp a := State.loadByte_congr sp a (by simp) (by simp)
@[simp] theorem commitParsed_loadByte (s : State) (q : Parsed) (sp : Space) (a : Nat) :
    (s.commitParsed q).loadByte sp a = s.loadByte sp a := State.loadByte_congr sp a (by simp) (by simp)
@[simp] theorem resetRegs_loadByte (s : State) (P : Params) (sp : Space) (a : Nat) :
    (s.resetRegs P).loadByte sp a = s.loadByte sp a := State.loadByte_congr sp a (by simp) (by simp)

@[simp] theorem loadBytes_length (s : State) (sp : Space) (off n : Nat) : (s.loadBytes sp off n).length = n := by
  simp [State.loadBytes]

/-- The `i`-th byte of a range read. -/
theorem loadBytes_getElem? (s : State) (sp : Space) (off n i : Nat) (h : i < n) :
    (s.loadBytes sp off n)[i]? = some (s.loadByte sp (off + i)) := by
  simp [State.loadBytes, h]

/-- One store: the stored byte where it covers, the old byte elsewhere. -/
theorem State.loadByte_applyStore (s : State) (st : Store) (sp : Space) (a : Nat) :
    (s.applyStore st).loadByte sp a =
      if st.covers sp a then st.bytes.getD (a - st.off) 0 else s.loadByte sp a := by
  unfold State.loadByte State.applyStore Store.covers
  by_cases hsp : st.space = sp
  · subst hsp
    rw [setMem_mem_self, Memory.load?_store, setMem_epoch]
    by_cases h : st.off ≤ a ∧ a < st.off + st.bytes.length
    · have h3 : a - st.off < st.bytes.length := by omega
      simp [h, List.getElem?_eq_getElem h3]
    · simp [h]
  · rw [setMem_mem_of_ne s _ _ _ (Ne.symm hsp), setMem_epoch]
    simp [hsp]

/-- A byte that no store covers keeps its value. -/
theorem State.loadByte_applyStores_of_not_covered (s : State) (sts : List Store) (sp : Space) (a : Nat)
    (h : ∀ st ∈ sts, st.covers sp a = false) : (s.applyStores sts).loadByte sp a = s.loadByte sp a := by
  induction sts generalizing s with
  | nil => rfl
  | cons st sts ih =>
    rw [applyStores_cons, ih _ (fun x hx => h x (List.mem_cons_of_mem _ hx)), State.loadByte_applyStore]
    simp [h st List.mem_cons_self]

/-- A byte that every covering store gives the value `v`, and some store covers, has the value `v`. -/
theorem State.loadByte_applyStores_of_covered (s : State) (sts : List Store) (sp : Space) (a : Nat) (v : Byte)
    (hv : ∀ st ∈ sts, st.covers sp a = true → st.bytes.getD (a - st.off) 0 = v)
    (h : (∃ st ∈ sts, st.covers sp a = true) ∨ s.loadByte sp a = v) :
    (s.applyStores sts).loadByte sp a = v := by
  induction sts generalizing s with
  | nil =>
    rcases h with ⟨_, h, _⟩ | h
    · exact absurd h List.not_mem_nil
    · exact h
  | cons st sts ih =>
    rw [applyStores_cons]
    refine ih _ (fun x hx => hv x (List.mem_cons_of_mem _ hx)) ?_
    rw [State.loadByte_applyStore]
    by_cases hc : st.covers sp a = true
    · right; rw [if_pos hc]; exact hv st List.mem_cons_self hc
    · rcases h with ⟨x, hx, hxc⟩ | h
      · rcases List.mem_cons.1 hx with rfl | hx
        · exact absurd hxc hc
        · exact .inl ⟨x, hx, hxc⟩
      · right; rw [if_neg hc]; exact h

/-- Stores one after the other. -/
theorem applyStores_append (s : State) (xs ys : List Store) :
    s.applyStores (xs ++ ys) = (s.applyStores xs).applyStores ys := by
  simp [State.applyStores]

/-- Stores inside their spaces keep the buffers in canonical form and bounds. -/
theorem State.buffersOk_applyStores (s : State) (sts : List Store) (h : s.BuffersOk)
    (hin : ∀ st ∈ sts, st.bytes = [] ∨ st.off + st.bytes.length ≤ Config.params.sizeOf st.space) :
    (s.applyStores sts).BuffersOk := by
  induction sts generalizing s with
  | nil => exact h
  | cons st sts ih =>
    refine ih _ ?_ (fun x hx => hin x (List.mem_cons_of_mem _ hx))
    have hst := hin st List.mem_cons_self
    obtain ⟨hp, he, hf⟩ := h
    obtain ⟨sp, off, bs⟩ := st
    cases sp
    · exact ⟨Memory.ok_store _ _ _ _ hp hst, he, hf⟩
    · exact ⟨hp, Memory.ok_store _ _ _ _ he hst, hf⟩
    · exact ⟨hp, he, Memory.ok_store _ _ _ _ hf hst⟩

/-- The reset state's buffers are in canonical form. -/
theorem reset_buffersOk : State.reset.BuffersOk := by decide

end Sys2Proof.Machine
end

