-- ==== Sys2Proof/Laws/Operands.lean ====
section
/-! SUPPORT. What the operand operations answer: the grid, the current block's rectangle, a filled rectangle, the reach of a
host access. -/

namespace Sys2Proof.Machine

/-- When the grid computation succeeds, and with what (42_frame_geometry R180). -/
theorem gridCompute_eq_ok (P : Params) (s : State) (g : Grid) :
    gridCompute P s = .ok g ↔
      s.blockW.toNat ≠ 0 ∧ s.blockH.toNat ≠ 0 ∧ s.frameW.toNat ≠ 0 ∧ s.frameH.toNat ≠ 0 ∧
      s.frameW.toNat * s.frameH.toNat ≤ P.maxPixels ∧
      g = ⟨s.frameW.toNat / s.blockW.toNat, s.frameH.toNat / s.blockH.toNat,
        s.frameW.toNat / s.blockW.toNat * (s.frameH.toNat / s.blockH.toNat),
        (s.frameW.toNat / s.blockW.toNat * (s.frameH.toNat / s.blockH.toNat) : Nat) - Config.metadataSize -
          Config.dataParityMax⟩ := by
  simp only [gridCompute]
  split
  · simp; omega
  · split
    · simp; omega
    · split
      · simp; omega
      · simp only [Except.ok.injEq]
        constructor
        · rintro rfl; refine ⟨?_, ?_, ?_, ?_, ?_, rfl⟩ <;> omega
        · rintro ⟨-, -, -, -, -, rfl⟩; rfl

/-- A grid's block count is at most the frame's pixel count. -/
theorem gridCompute_bound (P : Params) (s : State) (g : Grid) (h : gridCompute P s = .ok g) :
    g.n = g.cols * g.rows ∧ g.cols < 2 ^ 16 ∧ g.rows < 2 ^ 16 ∧ g.n ≤ P.maxPixels ∧
      g.cols * s.blockW.toNat ≤ s.frameW.toNat ∧ g.rows * s.blockH.toNat ≤ s.frameH.toNat := by
  obtain ⟨hbw, hbh, hw, hh, hmax, rfl⟩ := (gridCompute_eq_ok P s g).1 h
  refine ⟨rfl, ?_, ?_, ?_, Nat.div_mul_le_self _ _, Nat.div_mul_le_self _ _⟩
  · exact lt_of_le_of_lt (Nat.div_le_self _ _) s.frameW.isLt
  · exact lt_of_le_of_lt (Nat.div_le_self _ _) s.frameH.isLt
  · exact le_trans (Nat.mul_le_mul (Nat.div_le_self _ _) (Nat.div_le_self _ _)) hmax

/-- When the current block has a rectangle, and which (41_color_codec R160). -/
theorem currentRect_eq_ok (P : Params) (s : State) (rect : Rect) :
    currentRect P s = .ok rect ↔
      s.blockW.toNat ≠ 0 ∧ s.blockH.toNat ≠ 0 ∧ s.frameW.toNat ≠ 0 ∧ s.frameH.toNat ≠ 0 ∧
      s.frameW.toNat * s.frameH.toNat ≤ P.maxPixels ∧ s.travIdx.toNat < s.gridN.toNat ∧
      rect = blockRect s.blockW.toNat s.blockH.toNat s.travX.toNat s.travY.toNat ∧
      rect.x1 < s.frameW.toNat ∧ rect.y1 < s.frameH.toNat := by
  simp only [currentRect]
  split
  · simp; omega
  · split
    · simp; omega
    · split
      · simp; omega
      · split
        · simp; omega
        · split
          · rename_i h
            simp only [reduceCtorEq, false_iff]
            rintro ⟨-, -, -, -, -, -, rfl, h1, h2⟩; omega
          · rename_i h
            simp only [Except.ok.injEq]
            constructor
            · rintro rfl; refine ⟨?_, ?_, ?_, ?_, ?_, ?_, rfl, ?_, ?_⟩ <;> omega
            · rintro ⟨-, -, -, -, -, -, rfl, -, -⟩; rfl

/-- The bytes of a run of pixels of one color. -/
theorem pixelRun_getD (n : Nat) (c : Rgb) (i : Nat) (h : i < 3 * n) :
    (List.replicate n [c.r, c.g, c.b]).flatten.getD i 0 = rgbChannel c (i % 3) := by
  induction n generalizing i with
  | zero => omega
  | succ n ih =>
    rw [List.replicate_succ, List.flatten_cons]
    match i with
    | 0 | 1 | 2 => rfl
    | i + 3 =>
      have h3 : (i + 3) % 3 = i % 3 := by omega
      rw [h3, ← ih i (by omega)]
      rfl

theorem pixelRun_length (n : Nat) (c : Rgb) : (List.replicate n [c.r, c.g, c.b]).flatten.length = 3 * n := by
  induction n with
  | zero => rfl
  | succ n ih => rw [List.replicate_succ, List.flatten_cons, List.length_append, ih]; simp; omega

/-- A store of a filled rectangle: one row of it. -/
theorem mem_fillRect (w : Nat) (rect : Rect) (c : Rgb) (st : Store) :
    st ∈ fillRect w rect c ↔ ∃ dy < rect.y1 + 1 - rect.y0,
      st = ⟨.fb, fbAddr w rect.x0 (rect.y0 + dy) 0,
        (List.replicate (rect.x1 + 1 - rect.x0) [c.r, c.g, c.b]).flatten⟩ := by
  simp only [fillRect, List.mem_map, List.mem_reverse, List.mem_range]
  exact exists_congr fun dy => and_congr_right fun _ => eq_comm

/-- A byte that a filled rectangle covers takes the color's channel of its place in the pixel. -/
theorem fillRect_byte (w : Nat) (rect : Rect) (c : Rgb) (st : Store) (sp : Space) (a : Nat)
    (h : st ∈ fillRect w rect c) (hc : st.covers sp a = true) :
    st.bytes.getD (a - st.off) 0 = rgbChannel c (a % 3) := by
  obtain ⟨dy, -, rfl⟩ := (mem_fillRect w rect c st).1 h
  simp only [Store.covers, pixelRun_length, decide_eq_true_eq] at hc
  dsimp only
  rw [pixelRun_getD _ _ _ (by omega)]
  congr 1
  simp only [fbAddr] at hc ⊢
  omega

/-- Which bytes a filled rectangle covers: of each of its rows, the bytes of its columns. -/
theorem fillRect_covers (w : Nat) (rect : Rect) (c : Rgb) (sp : Space) (a : Nat) :
    (∃ st ∈ fillRect w rect c, st.covers sp a = true) ↔
      sp = .fb ∧ ∃ py, rect.y0 ≤ py ∧ py ≤ rect.y1 ∧ fbAddr w rect.x0 py 0 ≤ a ∧
        a < fbAddr w rect.x0 py 0 + 3 * (rect.x1 + 1 - rect.x0) := by
  constructor
  · rintro ⟨st, h, hc⟩
    obtain ⟨dy, hdy, rfl⟩ := (mem_fillRect w rect c st).1 h
    simp only [Store.covers, pixelRun_length, decide_eq_true_eq] at hc
    exact ⟨hc.1.symm, rect.y0 + dy, by omega, by omega, hc.2.1, hc.2.2⟩
  · rintro ⟨rfl, py, h0, h1, ha, hb⟩
    refine ⟨_, (mem_fillRect w rect c _).2 ⟨py - rect.y0, by omega, rfl⟩, ?_⟩
    have hy : rect.y0 + (py - rect.y0) = py := by omega
    simp only [Store.covers, pixelRun_length, decide_eq_true_eq, hy]
    exact ⟨trivial, ha, hb⟩

/-- An access that reaches a buffer lies wholly inside its window, with width 1 or an aligned width 4 (20_memory R90). -/
theorem target_eq_buf (P : Params) (addr : Word) (w : Width) (sp : Space) (off : Nat)
    (h : target P addr w = some (.buf sp off)) :
    addr.toNat = windowBase sp + off ∧ off + widthBytes w ≤ P.sizeOf sp ∧ w ≠ .w2 ∧
      (w = .w4 → addr.toNat % 4 = 0) := by
  have key : ∀ sp', inWindow P sp' addr.toNat w = true →
      windowBase sp' ≤ addr.toNat ∧ addr.toNat + widthBytes w ≤ windowBase sp' + P.sizeOf sp' ∧ w ≠ .w2 ∧
        (w = .w4 → addr.toNat % 4 = 0) := by
    intro sp' h
    cases w <;> simp_all [inWindow]
  simp only [target] at h
  split at h
  · split at h <;> simp at h
  · split at h
    · rename_i _ hw
      have := key _ hw
      simp only [Option.some.injEq, Target.buf.injEq] at h
      obtain ⟨rfl, rfl⟩ := h
      refine ⟨by omega, by omega, this.2.2⟩
    · split at h
      · rename_i _ hw
        have := key _ hw
        simp only [Option.some.injEq, Target.buf.injEq] at h
        obtain ⟨rfl, rfl⟩ := h
        refine ⟨by omega, by omega, this.2.2⟩
      · split at h
        · rename_i _ hw
          have := key _ hw
          simp only [Option.some.injEq, Target.buf.injEq] at h
          obtain ⟨rfl, rfl⟩ := h
          refine ⟨by omega, by omega, this.2.2⟩
        · simp at h

/-- An access that reaches the register window is an aligned width-4 access below 0x1000 (20_memory R90). -/
theorem target_eq_reg (P : Params) (addr : Word) (w : Width) (off : Nat) :
    target P addr w = some (.reg off) ↔ addr.toNat = off ∧ off < 0x1000 ∧ w = .w4 ∧ off % 4 = 0 := by
  simp only [target]
  split
  · split
    · rename_i hlt h
      simp only [Option.some.injEq, Target.reg.injEq]
      exact ⟨fun e => e ▸ ⟨rfl, hlt, h.1, h.2⟩, fun e => e.1⟩
    · rename_i h
      simp only [reduceCtorEq, false_iff]
      rintro ⟨rfl, -, rfl, h4⟩; exact h ⟨rfl, h4⟩
  · rename_i h
    have : ¬ (addr.toNat = off ∧ off < 0x1000 ∧ w = .w4 ∧ off % 4 = 0) := by omega
    split
    · simp [this]
    · split
      · simp [this]
      · split <;> simp [this]

end Sys2Proof.Machine
end

