-- ==== Sys2Proof/Laws/Codec.lean ====
section
/-! SUPPORT. What the Reed-Solomon and envelope operations answer: lengths, and what a decode or a parse that succeeds has
found. -/

namespace Sys2Proof.Machine

/-! ### The code -/

@[simp] theorem addOnto_length (xs ys : List Byte) : (addOnto xs ys).length = ys.length := by
  induction xs generalizing ys with
  | nil => cases ys <;> rfl
  | cons x xs ih => cases ys <;> simp [addOnto, ih]

theorem divideLoop_length (P : Params) (g : List Byte) (k : Nat) (buf : List Byte) :
    (divideLoop P g k buf).length = buf.length - k := by
  induction k generalizing buf with
  | zero => cases buf <;> rfl
  | succ k ih =>
    cases buf with
    | nil => simp [divideLoop]
    | cons c buf =>
      simp only [divideLoop, ih]
      split <;> simp

/-- A remainder has `p` bytes (43_fec_codec R213). -/
theorem remainder_length (P : Params) (p : Nat) (buf : List Byte) (h : p ≤ buf.length) :
    (remainder P p buf).length = p := by
  simp only [remainder, divideLoop_length]; omega

/-- `g_p` has `p + 1` coefficients (43_fec_codec R212). -/
theorem genPoly_length (P : Params) (p : Nat) : (genPoly P p).length = p + 1 := by
  induction p with
  | zero => rfl
  | succ p ih => simp [genPoly, ih]

/-- "total length = len(payload) + requested_parity" (43_fec_codec R213). -/
@[simp] theorem rsEncode_length (P : Params) (m : List Byte) (p : Nat) : (rsEncode P m p).length = m.length + p := by
  simp [rsEncode, remainder_length]

/-- The code is systematic (43_fec_codec R213). -/
theorem rsEncode_take (P : Params) (m : List Byte) (p : Nat) : (rsEncode P m p).take m.length = m := by
  simp [rsEncode]

/-! ### Decoding -/

theorem addErrors_length (r : List Byte) (ps : List Nat) (vs : List Byte) : (addErrors r ps vs).length = r.length := by
  unfold addErrors
  generalize ps.zip vs = l
  induction l generalizing r with
  | nil => rfl
  | cons q l ih => simp [ih]

/-- What a decode that answers has found: the word itself a codeword, or a codeword of its length within the correction
radius (43_fec_codec R216). -/
theorem rsDecode_cases (P : Params) (r : List Byte) (p : Nat) (msg : List Byte) (e : Nat)
    (h : rsDecode P r p = some (msg, e)) :
    ∃ c, isCodeword P p c = true ∧ c.length = r.length ∧ msg = c.take (r.length - p) ∧
      ((c = r ∧ e = 0) ∨ (r.length ≤ 255 ∧ e = hamming r c ∧ e ≤ p / 2)) := by
  simp only [rsDecode] at h
  split at h
  · rename_i hr
    simp only [Option.some.injEq, Prod.mk.injEq] at h
    exact ⟨r, hr, rfl, h.1.symm, .inl ⟨rfl, h.2.symm⟩⟩
  · split at h
    · simp at h
    · rename_i hn
      split at h
      · rename_i hc
        simp only [Option.some.injEq, Prod.mk.injEq] at h
        refine ⟨_, hc.1, addErrors_length _ _ _, h.1.symm, .inr ⟨?_, h.2.symm, h.2 ▸ hc.2⟩⟩
        simpa [Config.rsNmax] using hn
      · simp at h

/-- A decoded message has `n − p` bytes. -/
theorem rsDecode_length (P : Params) (r : List Byte) (p : Nat) (msg : List Byte) (e : Nat)
    (h : rsDecode P r p = some (msg, e)) : msg.length = r.length - p := by
  obtain ⟨c, -, hl, rfl, -⟩ := rsDecode_cases P r p msg e h
  rw [List.length_take, hl]; omega

/-! ### The envelope -/

@[simp] theorem lenBytes_length (P : Params) (v : Nat) : (lenBytes P v).length = 4 := by
  unfold lenBytes; split <;> simp [le32]

/-- What a built envelope is (43_fec_codec R241). -/
theorem buildEnvelope_eq_ok (P : Params) (payload : List Byte) (n : Nat) (env : Envelope) :
    buildEnvelope P payload n = .ok env ↔
      8 + payload.length + min payload.length 64 ≤ n ∧
      env = ⟨rsEncode P (lenBytes P (payload.length + min payload.length 64)) 4 ++
          rsEncode P payload (min payload.length 64),
        payload.length + min payload.length 64, min payload.length 64⟩ := by
  simp only [buildEnvelope, requestedParity, Config.dataParityMax, Config.metadataParity, List.length_append,
    rsEncode_length, lenBytes_length]
  split
  · simp; omega
  · simp only [Except.ok.injEq]
    exact ⟨fun h => ⟨by omega, h.symm⟩, fun h => h.2.symm⟩

/-- What a parse that succeeds has found, step by step (43_fec_codec R245). -/
theorem parseEnvelope_eq_ok (P : Params) (raw : List Byte) (q : Parsed) (h : parseEnvelope P raw = .ok q) :
    8 ≤ raw.length ∧
    (∃ lf, rsDecode P (raw.take 8) 4 = some (lf, q.metaErrs) ∧ q.dataLen = unLenBytes P lf) ∧
    q.dataLen ≤ raw.length - 8 ∧ q.parity = min (q.dataLen / 2) 64 ∧
    rsDecode P ((raw.drop 8).take q.dataLen) q.parity = some (q.payload, q.dataErrs) := by
  unfold parseEnvelope at h
  by_cases hlen : raw.length < Config.metadataSize
  · rw [if_pos hlen] at h; cases h
  rw [if_neg hlen] at h
  simp only [Config.metadataSize] at hlen
  cases hm : rsDecode P (raw.take Config.metadataSize) Config.metadataParity with
  | none => rw [hm] at h; cases h
  | some lfem =>
    obtain ⟨lf, em⟩ := lfem
    rw [hm] at h
    by_cases hl : (raw.drop Config.metadataSize).length < unLenBytes P lf
    · simp only [if_pos hl] at h; cases h
    simp only [if_neg hl] at h
    cases hd : rsDecode P ((raw.drop Config.metadataSize).take (unLenBytes P lf))
        (min (unLenBytes P lf / 2) Config.dataParityMax) with
    | none => rw [hd] at h; cases h
    | some pe =>
      obtain ⟨payload, ed⟩ := pe
      rw [hd] at h
      simp only [Except.ok.injEq] at h
      subst h
      rw [List.length_drop] at hl
      exact ⟨by omega, ⟨lf, hm, rfl⟩, by simpa [Config.metadataSize] using hl, rfl, hd⟩

/-- A parsed payload is no longer than the data region. -/
theorem parseEnvelope_payload_length (P : Params) (raw : List Byte) (q : Parsed) (h : parseEnvelope P raw = .ok q) :
    q.payload.length = q.dataLen - q.parity ∧ q.payload.length ≤ raw.length := by
  obtain ⟨h8, -, hl, -, hd⟩ := parseEnvelope_eq_ok P raw q h
  have := rsDecode_length P _ _ _ _ hd
  rw [List.length_take, List.length_drop] at this
  omega

end Sys2Proof.Machine
end

