-- ==== Sys2Proof/Laws/Commands.lean ====
section
/-! SUPPORT. What every command does in common: it completes, and its result is its registers, then its stores, then the
completion. -/

namespace Sys2Proof.Machine

/-- Every command's meaning is its result, finished: dispatch and the write set of 70_reset R341 read one text. -/
theorem exec_eq_finish (i : Instr) (s : State) : exec i s = .next (commandResult Config.params i s).finish := by
  cases i <;> rfl

@[simp] theorem finish_raise (s : State) (e : CmdError) :
    (CmdResult.raise s e).finish = s.failed e.code e.detail := rfl

@[simp] theorem finish_ok (s : State) (sts : List Store) :
    (CmdResult.ok s sts).finish = (s.applyStores sts).completed := rfl

/-- A step is the next event of the schedule, or the engine's turn (20_memory R100). -/
theorem step_cases (s : State) :
    (s.schedule = [] ∧ step s = engineTurn s) ∨
    (∃ es, s.schedule = .engine :: es ∧ step s = engineTurn { s with schedule := es }) ∨
    (∃ a es, s.schedule = .access a :: es ∧
      step s = .next (hostAccess Config.params a { s with schedule := es })) ∨
    (∃ es, s.schedule = .hardReset :: es ∧ step s = .next (hardReset Config.params { s with schedule := es })) := by
  unfold step
  split
  · rename_i h; exact .inl ⟨h, rfl⟩
  · rename_i es h; exact .inr (.inl ⟨es, h, rfl⟩)
  · rename_i a es h; exact .inr (.inr (.inl ⟨a, es, h, rfl⟩))
  · rename_i es h; exact .inr (.inr (.inr ⟨es, h, rfl⟩))

/-- The engine's turn: idle, a command performed, or a word rejected (10_state R60, 30_encoding R122). -/
theorem engineTurn_cases (s : State) :
    (s.pending = none ∧ engineTurn s = .next s) ∨
    (∃ w i, s.pending = some w ∧ decode w = .ok i ∧ engineTurn s = exec i s) ∨
    (∃ w e, s.pending = some w ∧ decode w = .error e ∧
      engineTurn s = .next (s.failed (decodeCmdError e).code (decodeCmdError e).detail)) := by
  unfold engineTurn
  split
  · rename_i h; exact .inl ⟨h, rfl⟩
  · rename_i w h
    split
    · rename_i i hi; exact .inr (.inl ⟨w, i, h, hi, rfl⟩)
    · rename_i e he; exact .inr (.inr ⟨w, e, h, he, rfl⟩)

end Sys2Proof.Machine
end

