-- ==== Sys2Proof/Laws/PerInstr.lean ====
section
/-! SUPPORT. A family of statements made per command: the shape of its word (30_encoding R120, R121). -/

namespace Sys2Proof.Laws

/-- The command's word is well-formed, holds its opcode in `OP` and 0 in `RSV`. -/
def WordShape.Statement (i : Instr) : Prop :=
  CommandWord.wf (encode i) = true ∧ (encode i).extractLsb' 0 8 = i.opcode ∧ (encode i).extractLsb' 8 24 = 0

theorem WordShape.nop : WordShape.Statement .nop := by unfold WordShape.Statement; decide
theorem WordShape.gridSetup : WordShape.Statement .gridSetup := by unfold WordShape.Statement; decide
theorem WordShape.travReset : WordShape.Statement .travReset := by unfold WordShape.Statement; decide
theorem WordShape.travNext : WordShape.Statement .travNext := by unfold WordShape.Statement; decide
theorem WordShape.fbClear : WordShape.Statement .fbClear := by unfold WordShape.Statement; decide
theorem WordShape.quant : WordShape.Statement .quant := by unfold WordShape.Statement; decide
theorem WordShape.dequantPix : WordShape.Statement .dequantPix := by unfold WordShape.Statement; decide
theorem WordShape.fillBlock : WordShape.Statement .fillBlock := by unfold WordShape.Statement; decide
theorem WordShape.dequantBlock : WordShape.Statement .dequantBlock := by unfold WordShape.Statement; decide
theorem WordShape.rsEnc : WordShape.Statement .rsEnc := by unfold WordShape.Statement; decide
theorem WordShape.rsDec : WordShape.Statement .rsDec := by unfold WordShape.Statement; decide
theorem WordShape.envBuild : WordShape.Statement .envBuild := by unfold WordShape.Statement; decide
theorem WordShape.envParse : WordShape.Statement .envParse := by unfold WordShape.Statement; decide
theorem WordShape.frameEncode : WordShape.Statement .frameEncode := by unfold WordShape.Statement; decide
theorem WordShape.frameDecode : WordShape.Statement .frameDecode := by unfold WordShape.Statement; decide
theorem WordShape.softReset : WordShape.Statement .softReset := by unfold WordShape.Statement; decide

end Sys2Proof.Laws
end

