-- ==== Sys2Proof/Tests/Slice0.lean ====
section
/-! SUPPORT. The model's own tests. Expected values come from the spec: the encodings of 30_encoding R121, the vectors of
95_test_vectors (named in each comment) and the rules. The theorems `witness_…` show, for each statement with hypotheses, a
state and operands that meet them. -/

namespace Sys2Proof.Tests

open Sys2Proof Sys2Proof.Machine

/-! ### Helpers -/

/-- The reset state with other frame and block dimensions. -/
def dims (w h bw bh : Half) : State := { State.reset with frameW := w, frameH := h, blockW := bw, blockH := bh }

/-- A state of dimensions `w`, `h`, `bw`, `bh` with its grid committed and the position at index `i`. -/
def atBlock (w h bw bh : Half) (i : Nat) : State :=
  ((dims w h bw bh).commitGrid ⟨w.toNat / bw.toNat, h.toNat / bh.toNat, w.toNat / bw.toNat * (h.toNat / bh.toNat),
    (w.toNat / bw.toNat * (h.toNat / bh.toNat) : Nat) - 72⟩).travSet i

/-- What holds of the next state, false where there is none. -/
def after (o : Host.Outcome State Fault Refusal) (f : State → Bool) : Bool :=
  match o with
  | .next t => f t
  | .fault _ => false
  | .refused _ => false

/-- One step on the word `w`, given as the host gives it. -/
def run (s : State) (w : Nat) (f : State → Bool) : Bool := after (step (s.withFetchWord 32 w)) f

/-- A buffer holding `bs` from offset 0. -/
def bytes (bs : List Nat) : Memory := Memory.cells 0 (bs.map (BitVec.ofNat 8))

/-- The first `n` bytes of a buffer, as numbers. -/
def first (t : State) (sp : Space) (n : Nat) : List Nat := (t.loadBytes sp 0 n).map BitVec.toNat

/-! ### Well-formedness: each check refuses an ill-formed term -/

theorem test_wf_opcode : CommandWord.opcodeLegal 0x00000005#32 = false := by decide
theorem test_wf_reserved : CommandWord.reservedZero 0x00000100#32 = false := by decide
theorem test_wf_word : CommandWord.wf 0x000000FF#32 = true ∧ CommandWord.wf 0x000001FF#32 = false := by decide
theorem test_wf_prim : Params.primDegree8 { Config.params with rsPrim := 0x1D#16 } = false := by decide
theorem test_wf_maxNsym : Params.maxNsymOk { Config.params with rsMaxNsym := 255 } = false := by decide
theorem test_wf_ddof : Params.ddofOk { Config.params with stdDdof := 2 } = false := by decide
theorem test_wf_buffers : Params.buffersFit { Config.params with ebufBytes := 2073599 } = false := by decide
theorem test_wf_windows : Params.windowsApart { Config.params with pbufBytes := 0x10000001 } = false := by decide
theorem test_wf_default : Config.params.wf = true := by decide

/-! ### Decoding: every row of 30_encoding R121, bits [31:8] then bits [7:0] -/

theorem test_decode_nop : decode (0#24 ++ 0b00000000#8) = .ok .nop := by decide
theorem test_decode_gridSetup : decode (0#24 ++ 0b00000001#8) = .ok .gridSetup := by decide
theorem test_decode_travReset : decode (0#24 ++ 0b00000010#8) = .ok .travReset := by decide
theorem test_decode_travNext : decode (0#24 ++ 0b00000011#8) = .ok .travNext := by decide
theorem test_decode_fbClear : decode (0#24 ++ 0b00000100#8) = .ok .fbClear := by decide
theorem test_decode_quant : decode (0#24 ++ 0b00010000#8) = .ok .quant := by decide
theorem test_decode_dequantPix : decode (0#24 ++ 0b00010001#8) = .ok .dequantPix := by decide
theorem test_decode_fillBlock : decode (0#24 ++ 0b00010010#8) = .ok .fillBlock := by decide
theorem test_decode_dequantBlock : decode (0#24 ++ 0b00010011#8) = .ok .dequantBlock := by decide
theorem test_decode_rsEnc : decode (0#24 ++ 0b00100000#8) = .ok .rsEnc := by decide
theorem test_decode_rsDec : decode (0#24 ++ 0b00100001#8) = .ok .rsDec := by decide
theorem test_decode_envBuild : decode (0#24 ++ 0b00110000#8) = .ok .envBuild := by decide
theorem test_decode_envParse : decode (0#24 ++ 0b00110001#8) = .ok .envParse := by decide
theorem test_decode_frameEncode : decode (0#24 ++ 0b01000000#8) = .ok .frameEncode := by decide
theorem test_decode_frameDecode : decode (0#24 ++ 0b01000001#8) = .ok .frameDecode := by decide
theorem test_decode_softReset : decode (0#24 ++ 0b11111111#8) = .ok .softReset := by decide
theorem test_decode_unknown : decode (0#24 ++ 0b00000101#8) = .error .opcode := by decide
theorem test_decode_reserved : decode (1#24 ++ 0b11111111#8) = .error .reservedBits := by decide
theorem test_decodeTableWord : decodeTableWord 32 0x41 = some .frameDecode ∧ decodeTableWord 32 0x141 = none := by decide

/-- The opcode map has no two rows with one opcode. -/
theorem test_opcodes_distinct : opcodeMap.Pairwise (fun a b => a.1 ≠ b.1) := by decide

/-- The register map has no two rows with one offset, and 36 registers 4 bytes apart (10_state R31). -/
theorem test_registers_distinct : regMap.map Prod.fst = (List.range 36).map (4 * ·) := by decide

/-! ### One step per command -/

/-- V-CTL-1, V-CTL-2, V-CTL-3: `STATUS` after NOP, an unknown opcode, reserved bits. -/
theorem test_nop : run State.reset 0x00 (fun t => t.statusWord == 0x00000022#32) = true := by decide
theorem test_illegal : run State.reset 0x05 (fun t => t.statusWord == 0x00010626#32) = true ∧
    run State.reset 0x100 (fun t => t.statusWord == 0x00020626#32) = true := by decide

/-- V-CTL-5. -/
theorem test_softReset : run (atBlock 4 2 2 1 3) 0xFF
    (fun t => t.statusWord == 0x00000022#32 && t.cmd == 0xFF#32 && t.frameW == 1920#16 && t.gridN == 0#32) = true := by
  decide

/-- G1. -/
theorem test_gridSetup : run State.reset 0x01 (fun t => t.gridCols == 120#16 && t.gridRows == 67#16 &&
    t.gridN == 8040#32 && t.capacity == 0x1F20#32 && t.statusWord == 0x2#32) = true := by decide
/-- G4: the block is checked first. -/
theorem test_gridSetup_error : run (dims 0 1080 0 16) 0x01 (fun t => t.statusWord == 0x00010126#32) = true := by decide

/-- G10. -/
theorem test_travReset : run (atBlock 1920 1080 16 16 5) 0x02 (fun t => t.travIdx == 0#32 && t.travX == 0#16) = true := by
  decide

/-- G7 and G8, on a 3 by 2 grid. -/
theorem test_travNext : run (atBlock 3 2 1 1 2) 0x03 (fun t => t.travIdx == 3#32 && t.travY ++ t.travX == 0x00010000#32)
    = true := by decide
theorem test_travNext_end : run (atBlock 3 2 1 1 5) 0x03
    (fun t => t.travIdx == 6#32 && t.travY ++ t.travX == 0x00020000#32 && t.travDone) = true := by decide

/-- G11. -/
theorem test_fbClear : run { dims 2 1 16 16 with bgRgb := ⟨1, 2, 3⟩ } 0x04
    (fun t => first t .fb 6 == [1, 2, 3, 1, 2, 3] && t.fb.length == 6) = true := by decide

/-- V-CC, rows 5A and A5. -/
theorem test_quant : run { State.reset with qbyte := 0x5A } 0x10
    (fun t => readReg Config.params t .qrgb == 0x0048FF48#32) = true := by decide

/-- V-CC, (252, 254, 251) and (107, 170, 143). -/
theorem test_dequantPix : run { State.reset with dqRgb := ⟨252, 254, 251⟩ } 0x11 (fun t => t.dqByte == 0xF6#8) = true ∧
    run { State.reset with dqRgb := ⟨107, 170, 143⟩ } 0x11 (fun t => t.dqByte == 0x53#8) = true := by decide

/-- P2, the loop body at i = 1, and G13. -/
theorem test_fillBlock : run { atBlock 4 2 2 1 1 with qbyte := 0x69 } 0x12
    (fun t => t.fb == Memory.cells 6 [0x6C, 0x55, 0x24, 0x6C, 0x55, 0x24] && t.qrgb == ⟨0x6C, 0x55, 0x24⟩) = true := by
  decide
theorem test_fillBlock_end : run (atBlock 4 2 2 1 4) 0x12 (fun t => t.statusWord == 0x00040126#32 && t.fb == []) = true := by
  decide

/-- E6 in R, E13-like in G, E7 in B: the values [0, 36, 200], [85, 85, 85] and [35, 35, 35] give levels 3, 1, 0. -/
theorem test_dequantBlock : run { atBlock 3 1 3 1 0 with fb := bytes [0, 85, 35, 36, 85, 35, 200, 85, 35] } 0x13
    (fun t => t.dqByte == 0x68#8) = true := by decide
/-- G14. -/
theorem test_dequantBlock_out : run { atBlock 4 2 2 1 3 with blockW := 3 } 0x13
    (fun t => t.statusWord == 0x00050106#32 && t.rectXy0 == 0x00010003#32 && t.rectXy1 == 0x00010005#32) = true := by
  decide

/-- V-RS-E6 (P5 step 4) and V-RS-E11. -/
theorem test_rsEnc : run { State.reset with ebuf := bytes [0x18, 0, 0, 0], rsLen := 4, rsNsym := 4 } 0x20
    (fun t => first t .ebuf 8 == [0x18, 0, 0, 0, 0xB3, 0x3C, 0x06, 0x91] && t.rsOutlen == 8#32) = true := by decide
theorem test_rsEnc_overlap : run { State.reset with ebuf := bytes [0x12, 0x34], rsDst := 2, rsLen := 2, rsNsym := 2 } 0x20
    (fun t => first t .ebuf 6 == [0x12, 0x34, 0x12, 0x34, 0x22, 0x04]) = true := by decide

/-- V-RS-D1 (P5 step 7) and V-RS-D3. -/
theorem test_rsDec : run { State.reset with
      ebuf := bytes [0x18, 0x55, 0, 0, 0xB3, 0x3C, 0x07, 0x91], rsDst := 8, rsLen := 8, rsNsym := 4 } 0x21
    (fun t => first t .ebuf 12 == [0x18, 0x55, 0, 0, 0xB3, 0x3C, 0x07, 0x91, 0x18, 0, 0, 0] &&
      readReg Config.params t .decNerr == 2#32) = true := by decide +kernel
theorem test_rsDec_fail : run { State.reset with
      ebuf := bytes [0x19, 0, 2, 0, 0xB3, 0x3F, 0x06, 0x91], rsLen := 8, rsNsym := 4 } 0x21
    (fun t => t.statusWord == 0x00050426#32 && t.rsOutlen == 0#32) = true := by decide +kernel

/-- V-ENV-3. -/
theorem test_envBuild : run { State.reset with pbuf := bytes [0x48, 0x69], payloadLen := 2 } 0x30
    (fun t => first t .ebuf 12 == [4, 0, 0, 0, 0x4D, 0x0A, 0x01, 0x42, 0x48, 0x69, 0x5E, 0x7F] && t.gridN == 0#32 &&
      t.envLen == 12#32 && t.dataLen == 4#32 && t.dataNsym == 2#8) = true := by decide +kernel
/-- The capacity boundary: an envelope of 12 bytes in a grid of 11. -/
theorem test_envBuild_long : run { dims 11 1 1 1 with pbuf := bytes [0x48, 0x69], payloadLen := 2 } 0x30
    (fun t => t.statusWord == 0x00020326#32 && t.ebuf == []) = true := by decide +kernel

/-- V-ENV-2 with one wrong metadata byte, in a grid of 12 blocks. -/
theorem test_envParse : run { dims 12 1 1 1 with
      ebuf := bytes [2, 0, 9, 0, 0xA8, 0x05, 0x8E, 0x21, 0x41, 0x41, 7, 7] } 0x31
    (fun t => first t .pbuf 1 == [0x41] && t.payloadLen == 1#32 && t.dataLen == 2#32 && t.dataNsym == 1#8 &&
      readReg Config.params t .decNerr == 0x00010000#32) = true := by decide +kernel
/-- V-ENV-8.6. -/
theorem test_envParse_small : run (dims 7 1 1 1) 0x31 (fun t => t.statusWord == 0x00010426#32) = true := by decide

/-- A frame of 73 one-pixel blocks takes one payload byte; its envelope is V-ENV-2, whose block 4 is (180, 85, 0). -/
theorem test_frameEncode : run { dims 73 1 1 1 with pbuf := bytes [0x41, 0x42], streamLen := 2 } 0x40
    (fun t => first t .ebuf 10 == [2, 0, 0, 0, 0xA8, 0x05, 0x8E, 0x21, 0x41, 0x41] && t.payloadLen == 1#32 &&
      (t.loadBytes .fb 12 3).map BitVec.toNat == [180, 85, 0] && t.travIdx == 10#32 && t.fb.length == 219) = true := by
  decide +kernel
/-- V-PIPE-3. -/
theorem test_frameEncode_noRoom : run { dims 9 8 1 1 with streamLen := 10 } 0x40
    (fun t => t.statusWord == 0x00010326#32 && t.fb == [] && t.ebuf == []) = true := by decide

/-- V-ENV-2 shown in a frame of 10 one-pixel blocks (95_test_vectors, colors of V-ENV-2). -/
def frameOfA : List Nat :=
  [0, 0, 72, 0, 0, 0, 0, 0, 0, 0, 0, 0, 180, 85, 0, 0, 0, 180, 144, 85, 216, 36, 0, 36, 72, 0, 36, 72, 0, 36]

theorem test_frameDecode : run { dims 10 1 1 1 with fb := bytes frameOfA } 0x41
    (fun t => first t .ebuf 10 == [2, 0, 0, 0, 0xA8, 0x05, 0x8E, 0x21, 0x41, 0x41] && first t .pbuf 1 == [0x41] &&
      t.payloadLen == 1#32 && t.statusWord == 0x00000022#32) = true := by decide +kernel
/-- V-PIPE-6: the scan commit sets `GRID_N` to 0. -/
theorem test_frameDecode_small : run { atBlock 4 2 2 1 1 with frameW := 15, frameH := 15, blockW := 16, blockH := 16 } 0x41
    (fun t => t.statusWord == 0x00010426#32 && t.gridN == 0#32) = true := by decide

/-! ### The estimator with other parameters: E3 and E14 on four values -/

theorem test_est_lower : est { Config.params with medianKind := .lower } [100, 100, 110, 110] = 105 := by decide
theorem test_est_mean : est Config.params [85, 85, 84, 84] = 85 := by decide

/-! ### The host port -/

/-- The state with one host transaction scheduled. -/
def doing (s : State) (a : HostAccess) : State := { s with schedule := [.access a] }

/-- V-HOST-1, V-HOST-2, V-HOST-3, V-HOST-4. -/
theorem test_host_word : after (step (doing State.reset (.write 0x20000000#32 .w4 0x04030201#32)))
    (fun t => t.ebuf == bytes [1, 2, 3, 4]) = true := by decide
theorem test_host_byte : after (step (doing { State.reset with ebuf := bytes [1, 2, 3, 4] } (.read 0x20000002#32 .w1)))
    (fun t => t.rdata == 3#32) = true := by decide
theorem test_host_misaligned : after (step (doing State.reset (.read 0x00000002#32 .w4)))
    (fun t => t.statusWord == 0x30#32 && t.rdata == 0#32) = true := by decide
theorem test_host_width2 : after (step (doing State.reset (.write 0x10000000#32 .w2 5#32)))
    (fun t => t.busErr && t.pbuf == []) = true := by decide

/-- V-HOST-8: a write to `FRAME_W` while GRID_SETUP is pending, then the engine's turn. -/
theorem test_host_busy : after (step (doing (State.reset.accept 1#32) (.write 0x00000010#32 .w4 5#32)))
    (fun t => t.statusWord == 0x29#32 && t.frameW == 1920#16 &&
      after (step t) (fun u => u.statusWord == 0x0A#32 && u.gridN == 8040#32)) = true := by decide

/-- A reset while RS_ENC is pending redraws its destination bytes 2 to 5 and keeps byte 0 (70_reset R341). -/
theorem test_reset_busy : after (step { State.reset with
      ebuf := bytes [7, 8, 9], rsDst := 2, rsLen := 3, rsNsym := 1, pending := some 0x20#32, schedule := [.hardReset] })
    (fun t => t.ebuf.map Prod.fst == [0, 1, 2, 3, 4, 5] && first t .ebuf 2 == [7, 8] && t.rsLen == 0#32) = true := by
  decide

/-! ### Witnesses: for each statement with hypotheses, values that meet them, clause by clause -/

theorem witness_DispatchOfPendingWord :
    (∀ w, (State.reset.accept w).schedule = [] ∧ (State.reset.accept w).pending = some w) ∧
    (∀ w, ({ State.reset.accept w with schedule := [.engine, .hardReset] }).schedule.head? = some .engine ∧
      ({ State.reset.accept w with schedule := [.engine, .hardReset] }).pending = some w) ∧
    (0xFFFFFFFE#32).extractLsb' 0 8 ∉ legalOpcodes ∧
    ((0x80000000#32).extractLsb' 0 8 ∈ legalOpcodes ∧ (0x80000000#32).extractLsb' 8 24 ≠ 0) ∧
    ((0x000000FF#32).extractLsb' 0 8 = Instr.softReset.opcode ∧ (0x000000FF#32).extractLsb' 8 24 = 0) :=
  ⟨fun _ => ⟨rfl, rfl⟩, fun _ => ⟨rfl, rfl⟩, by decide⟩

theorem witness_StepRunsDecodedCommand :
    decode 0x10#32 = .ok .quant ∧ (State.reset.accept 0x10#32).pending = some 0x10#32 ∧
    (State.reset.accept 0x10#32).schedule = [] ∧
    ({ State.reset.accept 0x10#32 with schedule := [.engine, .hardReset] }).schedule = .engine :: [.hardReset] ∧
    State.reset.pending = none ∧ State.reset.schedule = [] ∧
    ({ State.reset with schedule := [.engine] }).schedule = .engine :: [] := by decide

theorem witness_GridComputeChecks :
    (dims 0 0 0 16).blockW = 0 ∧ ((dims 0 1 1 1).blockW ≠ 0 ∧ (dims 0 1 1 1).frameW = 0) ∧
    (2073600 < (dims 1921 1080 1 1).frameW.toNat * (dims 1921 1080 1 1).frameH.toNat ∧
      (dims 1921 1080 1 1).frameW ≠ 0 ∧ (dims 1921 1080 1 1).blockW ≠ 0) ∧
    (State.reset.dimsUsable ∧ State.reset.frameW.toNat * State.reset.frameH.toNat = 2073600) := by decide

theorem witness_GridSetupCommitsGrid :
    (State.reset.dimsUsable ∧ State.reset.dimN = 8040) ∧ ((dims 1 1 2 2).dimsUsable ∧ (dims 1 1 2 2).dimN = 0) ∧
    gridCompute Config.params (dims 1 1 0 1) = .error .blockDimZero := by decide

theorem witness_TravNextAdvances :
    (atBlock 3 2 1 1 0).travIdx.toNat + 1 < (atBlock 3 2 1 1 0).gridN.toNat ∧
    (atBlock 3 2 1 1 5).travIdx.toNat + 1 = (atBlock 3 2 1 1 5).gridN.toNat ∧
    State.reset.gridN.toNat ≤ State.reset.travIdx.toNat := by decide

theorem witness_TravNextWalksRowMajor :
    ∀ i ∈ [0, 2, 5], (atBlock 3 2 1 1 i).GridOk ∧ (atBlock 3 2 1 1 i).TravOk ∧
      (atBlock 3 2 1 1 i).travIdx.toNat < (atBlock 3 2 1 1 i).gridN.toNat := by decide

theorem witness_TraversalVisitsEveryBlock :
    State.reset.dimsUsable ∧ 8039 < State.reset.dimN ∧ 8040 ≤ State.reset.dimN ∧
    (dims 1 1 2 2).dimsUsable ∧ 0 = (dims 1 1 2 2).dimN := by decide

theorem witness_FbClearFillsFrame :
    (dims 0 1 1 1).frameW = 0 ∧ (dims 1 0 1 1).frameH = 0 ∧
    ((dims 1921 1080 1 1).frameW ≠ 0 ∧ 2073600 < (dims 1921 1080 1 1).frameW.toNat * 1080) ∧
    (State.reset.frameW ≠ 0 ∧ State.reset.frameH ≠ 0 ∧
      State.reset.frameW.toNat * State.reset.frameH.toNat ≤ 2073600) := by decide

theorem witness_CurrentBlockChecks :
    (dims 0 0 0 16).blockW = 0 ∧ (dims 1 0 1 1).frameH = 0 ∧
    2073600 < (dims 1921 1080 1 1).frameW.toNat * (dims 1921 1080 1 1).frameH.toNat ∧
    (State.reset.dimsUsable ∧ State.reset.gridN.toNat ≤ State.reset.travIdx.toNat) ∧
    (let s := { atBlock 4 2 2 1 3 with blockW := 3 }
     s.dimsUsable ∧ s.travIdx.toNat < s.gridN.toNat ∧ s.frameW.toNat < (s.travX.toNat + 1) * s.blockW.toNat) ∧
    (let s := { atBlock 4 2 2 1 3 with frameH := 1 }
     s.dimsUsable ∧ s.travIdx.toNat < s.gridN.toNat ∧ s.frameH.toNat < (s.travY.toNat + 1) * s.blockH.toNat) ∧
    (atBlock 4 2 2 1 3).blockUsable := by decide

theorem witness_FillBlockRendersByte :
    (atBlock 4 2 2 1 3).blockUsable ∧ (atBlock 4 2 2 1 3).inCurrentBlock 3 1 ∧ ¬ (atBlock 4 2 2 1 3).inCurrentBlock 1 1 ∧
    currentRect Config.params (atBlock 4 2 2 1 4) = .error .travDone := by decide

theorem witness_DequantBlockRecoversByte :
    (atBlock 4 2 2 1 0).blockUsable ∧
    currentRect Config.params { atBlock 4 2 2 1 3 with blockW := 3 } = .error .rectOut := by decide

theorem witness_NoiselessBlockDecodes :
    let s := { atBlock 1 1 1 1 0 with fb := bytes [0x6C, 0x55, 0x24] }
    s.blockUsable ∧ ∀ px py c, s.inCurrentBlock px py → c < 3 →
      s.loadByte .fb (fbAddr s.frameW.toNat px py c) = rgbChannel (encodeColor 0x69) c := by
  refine ⟨by decide, fun px py c h hc => ?_⟩
  have hp : px = 0 ∧ py = 0 := by
    obtain ⟨_, h2, _, h4⟩ := h
    have h2 : px < 1 := h2
    have h4 : py < 1 := h4
    omega
  obtain ⟨rfl, rfl⟩ := hp
  interval_cases c <;> decide

theorem witness_EstimateIsFloorOfMedianPlusDeviation :
    [36, 36, 36, 35] ≠ ([] : List Nat) ∧ [35, 36, 36, 36].Perm [36, 36, 36, 35] ∧
    [35, 36, 36, 36].Pairwise (· ≤ ·) := by decide

theorem witness_GfMulIsFieldProduct : (0x53#8 : Byte) ≠ 0 := by decide

theorem witness_AlphaHasOrder255 :
    0 < 255 ∧ 254 < 255 ∧ alphaPow Config.params 3 = alphaPow Config.params 3 ∧ (0xFF#8 : Byte) ≠ 0 := by decide

theorem witness_GeneratorHasItsRoots : 3 < 4 := by decide

theorem witness_CodewordIffSyndromesZero :
    4 ≤ 255 ∧ 4 ≤ ([0x18, 0, 0, 0, 0xB3, 0x3C, 0x06, 0x91] : List Byte).length ∧
    isCodeword Config.params 4 [0x18, 0, 0, 0, 0xB3, 0x3C, 0x06, 0x91] = true ∧
    isCodeword Config.params 4 [0x18, 0, 0, 0, 0xB3, 0x3C, 0x06, 0x90] = false := by decide

theorem witness_CodeMinimumDistance :
    (isCodeword Config.params 1 [0, 0] = true ∧ isCodeword Config.params 1 [1, 1] = true ∧ ([0, 0] : List Byte) ≠ [1, 1] ∧
      ([0, 0] : List Byte).length = ([1, 1] : List Byte).length ∧ 1 ≤ ([0, 0] : List Byte).length) ∧
    (0 < 1 ∧ 254 < 255 ∧ 255 ≤ 255) ∧ (1 ≤ 255 ∧ 255 ≤ 255 ∧ 256 ≤ 256) := by decide
/-- The word of weight 2 of 43_fec_codec R215, at the least length beyond 255. -/
theorem witness_CodeMinimumDistance_long :
    let a : List Byte := List.replicate 256 0
    let b : List Byte := 1 :: (List.replicate 254 0 ++ [1])
    a.length = b.length ∧ 256 ≤ a.length ∧ isCodeword Config.params 1 a = true ∧ isCodeword Config.params 1 b = true ∧
      a ≠ b := by decide +kernel

theorem witness_RsDecode_codeword : isCodeword Config.params 1 [0] = true ∧ 1 ≤ ([0] : List Byte).length := by decide
theorem witness_RsDecode_correctable :
    isCodeword Config.params 2 [0x12, 0x35, 0x22, 0x04] = false ∧ isCodeword Config.params 2 [0x12, 0x34, 0x22, 0x04] = true ∧
    hamming [0x12, 0x35, 0x22, 0x04] [0x12, 0x34, 0x22, 0x04] ≤ 2 / 2 := by decide
theorem witness_RsDecode_tooLong :
    isCodeword Config.params 1 (List.replicate 255 0 ++ [1]) = false ∧
    255 < (List.replicate 255 0 ++ [1] : List Byte).length := by decide +kernel
theorem witness_RsDecode_noneWithin :
    isCodeword Config.params 1 [1, 0] = false ∧ ∀ c : List Byte, c.length = ([1, 0] : List Byte).length →
      isCodeword Config.params 1 c = true → 1 / 2 < hamming [1, 0] c := by
  refine ⟨by decide, fun c hl hc => ?_⟩
  match c, hl with
  | [a, b], _ =>
    by_cases ha : a = 1
    · by_cases hb : b = 0
      · subst ha hb
        exact absurd hc (by decide)
      · have hb' : ¬ (0#8 = b) := fun h => hb h.symm
        simp [hamming, hb']
    · have ha' : ¬ (1#8 = a) := fun h => ha h.symm
      simp [hamming, ha']

theorem witness_RsCorrectsErrors :
    ([0x12, 0x34] : List Byte).length + 2 ≤ 255 ∧ ([0x12, 0x35, 0x22, 0x04] : List Byte).length = 2 + 2 ∧
    hamming [0x12, 0x35, 0x22, 0x04] (rsEncode Config.params [0x12, 0x34] 2) ≤ 2 / 2 := by decide

theorem witness_RsEncStoresCodeword :
    254 < ({ State.reset with rsNsym := 255, rsLen := 255 }).rsNsym.toNat ∧
    ({ State.reset with rsNsym := 2, rsLen := 1 }).rsLen.toNat < 2 ∧
    (let s := { State.reset with rsSrc := 2073599, rsLen := 2, rsNsym := 2 }
     s.rsNsym.toNat ≤ s.rsLen.toNat ∧ s.rsSrc.toNat + s.rsLen.toNat = 2073601) ∧
    (let s := { State.reset with rsDst := 2073597, rsLen := 2, rsNsym := 2 }
     s.rsDst.toNat + s.rsLen.toNat + s.rsNsym.toNat = 2073601) ∧
    (let s := { State.reset with rsSrc := 2073346, rsDst := 2073092, rsLen := 254, rsNsym := 254 }
     s.rsNsym.toNat ≤ 254 ∧ s.rsNsym.toNat ≤ s.rsLen.toNat ∧ s.rsSrc.toNat + s.rsLen.toNat = 2073600 ∧
       s.rsDst.toNat + s.rsLen.toNat + s.rsNsym.toNat = 2073600) := by decide

/-- V-RS-D1 and V-RS-D3 for the two outcomes of the decode. -/
theorem witness_RsDecStoresMessage :
    254 < ({ State.reset with rsNsym := 255 }).rsNsym.toNat ∧
    ({ State.reset with rsNsym := 2, rsLen := 3 }).rsLen.toNat < 2 * 2 ∧
    (let s := { State.reset with rsSrc := 2073597, rsLen := 4, rsNsym := 2 }
     2 * s.rsNsym.toNat ≤ s.rsLen.toNat ∧ s.rsSrc.toNat + s.rsLen.toNat = 2073601) ∧
    (let s := { State.reset with ebuf := bytes [0x18, 0x55, 0, 0, 0xB3, 0x3C, 0x07, 0x91], rsLen := 8, rsNsym := 4,
                                 rsDst := 2073596 }
     2 * s.rsNsym.toNat ≤ s.rsLen.toNat ∧ s.rsDst.toNat + (s.rsLen.toNat - s.rsNsym.toNat) = 2073600 ∧
       rsDecode Config.params (s.loadBytes .ebuf s.rsSrc.toNat s.rsLen.toNat) s.rsNsym.toNat = some ([0x18, 0, 0, 0], 2)) ∧
    (let s := { State.reset with ebuf := bytes [0x19, 0, 2, 0, 0xB3, 0x3F, 0x06, 0x91], rsLen := 8, rsNsym := 4 }
     rsDecode Config.params (s.loadBytes .ebuf s.rsSrc.toNat s.rsLen.toNat) s.rsNsym.toNat = none) := by decide +kernel

theorem witness_EnvBuildStoresEnvelope :
    gridCompute Config.params (dims 1 1 0 1) = .error .blockDimZero ∧
    (State.reset.dimsUsable ∧ 2073600 < ({ State.reset with payloadLen := 2073601 }).payloadLen.toNat) ∧
    State.reset.payloadLen.toNat = 0 ∧
    (let s := { dims 9 1 1 1 with payloadLen := 1 }
     s.dimsUsable ∧ s.dimN < 8 + s.payloadLen.toNat + min s.payloadLen.toNat 64) ∧
    (let s := { dims 1920 1080 1 1 with payloadLen := 2073600 }
     s.dimsUsable ∧ s.dimN < 8 + s.payloadLen.toNat + min s.payloadLen.toNat 64) ∧
    (let s := { dims 10 1 1 1 with payloadLen := 1 }
     s.dimsUsable ∧ 0 < s.payloadLen.toNat ∧ 8 + s.payloadLen.toNat + min s.payloadLen.toNat 64 = s.dimN) := by decide

theorem witness_ParseEnvelopeSteps :
    (List.replicate 7 0 : List Byte).length < 8 ∧
    rsDecode Config.params ([0x19, 0, 2, 0, 0xB3, 0x3F, 0x06, 0x91].take 8) 4 = none ∧
    rsDecode Config.params ([2, 0, 0, 0, 0xA8, 0x05, 0x8E, 0x21].take 8) 4 = some ([2, 0, 0, 0], 0) ∧
    unle [2, 0, 0, 0] = 2 ∧ 9 < 8 + 2 ∧ rsDecode Config.params [0x41, 0x42] (min (2 / 2) 64) = none ∧
    rsDecode Config.params [0x41, 0x41] (min (2 / 2) 64) = some ([0x41], 0) := by decide +kernel

theorem witness_EnvParseStoresPayload :
    gridCompute Config.params (dims 1 0 1 1) = .error .frameDimZero ∧
    ((dims 7 1 1 1).dimsUsable ∧
      parseEnvelope Config.params ((dims 7 1 1 1).loadBytes .ebuf 0 (dims 7 1 1 1).dimN) = .error .frameTooSmall) ∧
    (let s := { dims 10 1 1 1 with ebuf := bytes [2, 0, 9, 0, 0xA8, 0x05, 0x8E, 0x21, 0x41, 0x41] }
     s.dimsUsable ∧
       parseEnvelope Config.params (s.loadBytes .ebuf 0 s.dimN) = .ok ⟨[0x41], 2, 1, 1, 0⟩) := by decide +kernel

theorem witness_EnvelopeSizeAndCapacity :
    8 + ([0x41] : List Byte).length + min ([0x41] : List Byte).length 64 ≤ 10 ∧
    9 < 8 + ([0x41] : List Byte).length + min ([0x41] : List Byte).length 64 ∧
    ([0x41] : List Byte).length + 72 ≤ 73 := by decide

theorem witness_EnvelopeRoundTrip : ([0x41] : List Byte).length + 64 < 2 ^ 32 := by decide

/-- V-ENV-3 with two wrong metadata bytes and one wrong data byte. -/
theorem witness_EnvelopeNoiseTolerance_short :
    let payload : List Byte := [0x48, 0x69]
    let raw : List Byte := [4, 9, 0, 0, 0x4D, 0x0A, 0x01, 0x43, 0x48, 0x68, 0x5E, 0x7F]
    payload.length + 64 < 2 ^ 32 ∧ 8 + (2 + min 2 64) ≤ raw.length ∧
    hamming (raw.take 8) ((envelopeOf payload).take 8) = 2 ∧
    hamming ((raw.drop 8).take 4) ((envelopeOf payload).drop 8) = min payload.length 64 / 2 := by decide +kernel

/-- A payload of 191 bytes gives a data block of 255, here with 32 wrong bytes. -/
theorem witness_EnvelopeNoiseTolerance_last :
    let payload : List Byte := List.replicate 191 0
    let raw : List Byte := (envelopeOf payload).take 8 ++ (List.replicate 32 1 ++ List.replicate 223 0)
    8 + 255 ≤ raw.length ∧ hamming (raw.take 8) ((envelopeOf payload).take 8) ≤ 2 ∧ 191 + min 191 64 = 255 ∧
    hamming ((raw.drop 8).take 255) ((envelopeOf payload).drop 8) = min payload.length 64 / 2 := by decide +kernel

/-- A payload of 192 bytes gives a data block of 256. -/
theorem witness_EnvelopeNoiseTolerance_long :
    let payload : List Byte := List.replicate 192 0
    let raw : List Byte := (envelopeOf payload).take 8 ++ (List.replicate 255 0 ++ [1])
    8 + 256 ≤ raw.length ∧ hamming (raw.take 8) ((envelopeOf payload).take 8) ≤ 2 ∧ 255 < 192 + min 192 64 ∧
    isCodeword Config.params (min payload.length 64) ((raw.drop 8).take 256) = false := by decide +kernel

theorem witness_FrameEncodeRendersEnvelope :
    gridCompute Config.params (dims 1 0 1 1) = .error .frameDimZero ∧
    2073600 < ({ dims 73 1 1 1 with streamLen := 2073601 }).streamLen.toNat ∧
    ((dims 73 1 1 1).dimsUsable ∧ (dims 73 1 1 1).streamLen.toNat = 0) ∧
    ((dims 72 1 1 1).dimsUsable ∧ (dims 72 1 1 1).dimN ≤ 72 ∧
      0 < ({ dims 72 1 1 1 with streamLen := 1 }).streamLen.toNat) ∧
    (let s := { dims 73 1 1 1 with streamLen := 2073600 }
     s.dimsUsable ∧ 0 < s.streamLen.toNat ∧ s.streamLen.toNat ≤ 2073600 ∧ 72 < s.dimN) := by decide

theorem witness_FrameDecodeCommitsScan :
    gridCompute Config.params (dims 1 0 1 1) = .error .frameDimZero ∧
    (let s := dims 7 1 1 1
     s.dimsUsable ∧ parseEnvelope Config.params ((List.range s.dimN).map fun i =>
       blockByte Config.params s (blockRect s.blockW.toNat s.blockH.toNat (i % s.dimCols) (i / s.dimCols))) =
         .error .frameTooSmall) ∧
    (let s := { dims 10 1 1 1 with fb := bytes frameOfA }
     s.dimsUsable ∧ parseEnvelope Config.params ((List.range s.dimN).map fun i =>
       blockByte Config.params s (blockRect s.blockW.toNat s.blockH.toNat (i % s.dimCols) (i / s.dimCols))) =
         .ok ⟨[0x41], 2, 1, 0, 0⟩) := by decide +kernel

theorem witness_FrameRoundTrip :
    let s := { dims 73 1 1 1 with streamLen := 1 }
    s.dimsUsable ∧ 0 < s.streamLen.toNat ∧ s.streamLen.toNat ≤ 2073600 ∧ 72 < s.dimN := by decide

theorem witness_ErrorsCommitOnlyStatus :
    (∃ t, exec .gridSetup (dims 1 1 0 1) = .next t ∧ t.err = true) ∧ (dims 1 1 0 1).err = false ∧
    (∃ t, exec .frameDecode (dims 1 1 2 2) = .next t ∧ t.err = true) ∧ (dims 1 1 2 2).err = false :=
  ⟨⟨_, rfl, by decide⟩, by decide, ⟨_, rfl, by decide⟩, by decide⟩

theorem witness_IllegalAccessSetsBusErr :
    (∀ x ∈ [(0x00000002, Width.w4), (0x00000FFC, .w1), (0x00001000, .w4), (0x0FFFFFFF, .w1), (0x10000000, .w2),
        (0x101FA400, .w1), (0x101FA3FE, .w4), (0x305EEC00, .w1), (0xFFFFFFFC, .w4)], ¬ legalAccess x.1 x.2) ∧
    (∀ x ∈ [(0x00000000, Width.w4), (0x00000FFC, .w4), (0x10000000, .w1), (0x101FA3FF, .w1), (0x101FA3FC, .w4),
        (0x305EEBFF, .w1), (0x201FA3FC, .w4)], legalAccess x.1 x.2) := by decide

theorem witness_RegisterReadReturnsValue :
    (0x08C < 0x1000 ∧ 0x08C % 4 = 0 ∧ (0x08C, Reg.maxPix) ∈ regMap) ∧ (0x090 ≤ 0x090 ∧ 0x090 % 4 = 0) ∧
    (0x090 ≤ 0xFFC ∧ 0xFFC < 0x1000 ∧ 0xFFC % 4 = 0) := by decide

theorem witness_RegisterWriteRules :
    State.reset.busy = false ∧ (0x07C < 0x1000 ∧ 0x07C % 4 = 0 ∧ (0x07C, Reg.bgRgb) ∈ regMap) ∧ ((0x010, Reg.frameW) ∈ regMap ∧ Reg.frameW.isOperand = true) ∧ (0x004, Reg.ctrl) ∈ regMap ∧
    ((0x000, Reg.id) ∈ regMap ∧ Reg.id.isOperand = false) ∧ (0x090 ≤ 0xFFC ∧ 0xFFC < 0x1000 ∧ 0xFFC % 4 = 0) := by decide

theorem witness_CommandAcceptance :
    State.reset.pending = none ∧ (State.reset.accept 0x10#32).pending ≠ none := by decide

theorem witness_BufferAccessesAreLittleEndian :
    State.reset.busy = false ∧ 2073599 < Config.params.sizeOf .pbuf ∧ 2073596 % 4 = 0 ∧
    2073596 + 4 ≤ Config.params.sizeOf .ebuf ∧ 6220796 + 4 ≤ Config.params.sizeOf .fb := by decide

theorem witness_BusyHazards :
    (State.reset.accept 0x10#32).busy = true ∧ (State.reset.accept 0x10#32).StatusOk ∧
    legalAccess (windowBase .fb + 6220796) .w4 ∧ 6220796 < Config.params.sizeOf .fb ∧
    ((0x07C, Reg.bgRgb) ∈ regMap ∧ Reg.bgRgb.isOperand = true) ∧
    ((0x03C, Reg.rectXy1) ∈ regMap ∧ Reg.rectXy1.isOperand = false) ∧ (0x090 ≤ 0xFFC ∧ 0xFFC < 0x1000 ∧ 0xFFC % 4 = 0) := by
  decide

theorem witness_InterruptFollowsDone :
    Instr.nop ≠ .softReset ∧ ({ State.reset with irqEn := true }).irqEn = true := by decide

theorem witness_HardResetRedrawsBuffers :
    State.reset.busy = false ∧ ((dims 1 1 1 1).accept 0x04#32).busy = true ∧
    (pendingStores Config.params ((dims 1 1 1 1).accept 0x04#32)).any (fun st => st.covers .fb 2) = true ∧
    (pendingStores Config.params ((dims 1 1 1 1).accept 0x04#32)).any (fun st => st.covers .fb 3) = false := by decide

theorem witness_OnlyGridCommandsMoveTraversal :
    let s := State.reset.accept 0x10#32
    (∃ t, step s = .next t) ∧ s.schedule.head? ≠ some .hardReset ∧ s.schedule.head? = none ∧
    ∀ w i, s.pending = some w → decode w = .ok i →
      i ∉ [Instr.gridSetup, .travReset, .travNext, .frameEncode, .frameDecode, .softReset] := by
  refine ⟨⟨_, rfl⟩, by decide, by decide, fun w i hw hi => ?_⟩
  cases hw
  cases hi
  decide

theorem witness_AcceptedCommandCompletes :
    (State.reset.accept 0x41#32).busy = true ∧
    (let s := { State.reset.accept 0x41#32 with schedule := [.access (.read 0x00000008#32 .w4), .engine] }
     s.busy = true ∧ Event.hardReset ∉ s.schedule) ∧
    ({ State.reset.accept 0x41#32 with schedule := [.hardReset] }).busy = true := by decide

theorem witness_WriteSetOfPendingCommand :
    ((dims 1 1 1 1).accept 0x04#32).pending = some 0x04#32 ∧ decode 0x04#32 = .ok .fbClear ∧
    (∃ t, exec .fbClear ((dims 1 1 1 1).accept 0x04#32) = .next t) ∧
    (pendingStores Config.params ((dims 1 1 1 1).accept 0x04#32)).any (fun st => st.covers .fb 3) = false ∧
    (pendingStores Config.params ((atBlock 4 2 2 1 0).accept 0x12#32)).any (fun st => st.covers .fb 5) = true ∧
    (pendingStores Config.params ((dims 1 1 1 1).accept 0x41#32)).any (fun st => st.covers .ebuf 0) = true ∧
    decode 0x05#32 = .error .opcode ∧
    (let s := { dims 73 1 1 1 with streamLen := 1 }.accept 0x40#32
     s.pending = some 0x40#32 ∧ s.dimsUsable ∧ 0 < s.streamLen.toNat ∧ s.streamLen.toNat ≤ 2073600 ∧ 72 < s.dimN) :=
  ⟨by decide, by decide, ⟨_, rfl⟩, by decide +kernel⟩

theorem witness_StepKeepsInvariant :
    (State.reset.accept 0x04#32).Inv ∧ (∃ t, step (State.reset.accept 0x04#32) = .next t) ∧
    ({ atBlock 3 2 1 1 5 with ebuf := bytes [1, 2] }).Inv := ⟨by decide, ⟨_, rfl⟩, by decide⟩

end Sys2Proof.Tests
end

section
/-! What a command can do, said once: `CommandEffect` lists the results of every command (10_state R60, R62), and each law
about all commands is a case split over it. -/

namespace Sys2Proof.Machine

/-- The results a command can have, with what its checks have established: an error with nothing written, or the writes of
the command's own rule. FRAME_DECODE has a third kind, the scan commit of a failed parse (60_exceptions R310). -/
inductive CommandEffect (P : Params) (s : State) : Instr → CmdResult → Prop
  | fails (i : Instr) (e : CmdError) : CommandEffect P s i (.raise s e)
  | nop : CommandEffect P s .nop (.ok s [])
  | gridSetup (g : Grid) (hg : gridCompute P s = .ok g) :
      CommandEffect P s .gridSetup (.ok ((s.commitGrid g).travSet 0) [])
  | travReset : CommandEffect P s .travReset (.ok (s.travSet 0) [])
  | travNext (h : s.travIdx.toNat < s.gridN.toNat) :
      CommandEffect P s .travNext (.ok (s.travSet (s.travIdx.toNat + 1)) [])
  | travNextAtEnd : CommandEffect P s .travNext (.ok s [])
  | fbClear (hw : s.frameW.toNat ≠ 0) (hh : s.frameH.toNat ≠ 0)
      (hmax : s.frameW.toNat * s.frameH.toNat ≤ P.maxPixels) : CommandEffect P s .fbClear (.ok s (blankStores s))
  | quant : CommandEffect P s .quant (.ok { s with qrgb := encodeColor s.qbyte } [])
  | dequantPix : CommandEffect P s .dequantPix (.ok { s with dqByte := decodeColor s.dqRgb } [])
  | fillBlock (rect : Rect) (hr : currentRect P s = .ok rect) :
      CommandEffect P s .fillBlock (.ok { s with qrgb := encodeColor s.qbyte }
        (fillRect s.frameW.toNat rect (encodeColor s.qbyte)))
  | dequantBlock (rect : Rect) (hr : currentRect P s = .ok rect) :
      CommandEffect P s .dequantBlock (.ok { s with dqByte := blockByte P s rect } [])
  | rsEnc (hdst : inSpace P .ebuf s.rsDst.toNat (s.rsLen.toNat + s.rsNsym.toNat) = true) :
      CommandEffect P s .rsEnc (.ok { s with rsOutlen := BitVec.ofNat 32 (s.rsLen.toNat + s.rsNsym.toNat) }
        [⟨.ebuf, s.rsDst.toNat,
          rsEncode P (s.loadBytes .ebuf s.rsSrc.toNat s.rsLen.toNat) s.rsNsym.toNat⟩])
  | rsDec (msg : List Byte) (n : Nat)
      (hdst : inSpace P .ebuf s.rsDst.toNat (s.rsLen.toNat - s.rsNsym.toNat) = true)
      (hd : rsDecode P (s.loadBytes .ebuf s.rsSrc.toNat s.rsLen.toNat) s.rsNsym.toNat = some (msg, n)) :
      CommandEffect P s .rsDec
        (.ok { s with
            rsOutlen    := BitVec.ofNat 32 (s.rsLen.toNat - s.rsNsym.toNat)
            decNerrData := BitVec.ofNat 16 n
            decNerrMeta := 0 }
          [⟨.ebuf, s.rsDst.toNat, msg⟩])
  | envBuild (g : Grid) (env : Envelope) (hg : gridCompute P s = .ok g)
      (he : buildEnvelope P (s.loadBytes .pbuf 0 s.payloadLen.toNat) g.n = .ok env)
      (hin : inSpace P .ebuf 0 env.bytes.length = true) :
      CommandEffect P s .envBuild
        (.ok { s with
            envLen   := BitVec.ofNat 32 env.bytes.length
            dataLen  := BitVec.ofNat 32 env.dataLen
            dataNsym := BitVec.ofNat 8 env.parity }
          [⟨.ebuf, 0, env.bytes⟩])
  | envParse (g : Grid) (q : Parsed) (hg : gridCompute P s = .ok g)
      (hq : parseEnvelope P (s.loadBytes .ebuf 0 g.n) = .ok q) (hin : inSpace P .pbuf 0 q.payload.length = true) :
      CommandEffect P s .envParse (.ok (s.commitParsed q) [⟨.pbuf, 0, q.payload⟩])
  | frameEncode (g : Grid) (k : Nat) (env : Envelope) (hg : gridCompute P s = .ok g)
      (he : buildEnvelope P (s.loadBytes .pbuf 0 k) g.n = .ok env) :
      CommandEffect P s .frameEncode
        (.ok ({ s.commitGrid g with
              payloadLen := BitVec.ofNat 32 k
              envLen     := BitVec.ofNat 32 env.bytes.length
              dataLen    := BitVec.ofNat 32 env.dataLen
              dataNsym   := BitVec.ofNat 8 env.parity }.travSet env.bytes.length)
          (renderStores s g.cols env.bytes ++ [⟨.ebuf, 0, env.bytes⟩]))
  | frameDecodeScan (g : Grid) (e : CmdError) (hg : gridCompute P s = .ok g)
      (hn : inSpace P .ebuf 0 g.n = true) (hp : parseEnvelope P (scan P s g.cols g.n) = .error e) :
      CommandEffect P s .frameDecode
        ⟨(s.commitGrid g).travSet g.n, [⟨.ebuf, 0, scan P s g.cols g.n⟩], some e⟩
  | frameDecode (g : Grid) (q : Parsed) (hg : gridCompute P s = .ok g)
      (hn : inSpace P .ebuf 0 g.n = true) (hp : parseEnvelope P (scan P s g.cols g.n) = .ok q) :
      CommandEffect P s .frameDecode
        (.ok (((s.commitGrid g).travSet g.n).commitParsed q)
          [⟨.ebuf, 0, scan P s g.cols g.n⟩, ⟨.pbuf, 0, q.payload⟩])
  | softReset : CommandEffect P s .softReset (.ok { s.resetRegs P with cmd := 0x000000FF#32 } [])

section
variable (P : Params) (s : State)

theorem cmdGridSetup_effect : CommandEffect P s .gridSetup (cmdGridSetup P s) := by
  unfold cmdGridSetup
  split
  · exact .fails _ _
  · exact .gridSetup _ ‹_›

theorem cmdTravNext_effect : CommandEffect P s .travNext (cmdTravNext s) := by
  unfold cmdTravNext
  split
  · exact .travNext ‹_›
  · exact .travNextAtEnd

theorem cmdFbClear_effect : CommandEffect P s .fbClear (cmdFbClear P s) := by
  unfold cmdFbClear
  split
  · exact .fails _ _
  split
  · exact .fails _ _
  · exact .fbClear (by omega) (by omega) (by omega)

theorem cmdFillBlock_effect : CommandEffect P s .fillBlock (cmdFillBlock P s) := by
  unfold cmdFillBlock
  split
  · exact .fails _ _
  · exact .fillBlock _ ‹_›

theorem cmdDequantBlock_effect : CommandEffect P s .dequantBlock (cmdDequantBlock P s) := by
  unfold cmdDequantBlock
  split
  · exact .fails _ _
  · exact .dequantBlock _ ‹_›

theorem cmdRsEnc_effect : CommandEffect P s .rsEnc (cmdRsEnc P s) := by
  unfold cmdRsEnc
  dsimp only
  split
  · exact .fails _ _
  split
  · exact .fails _ _
  split
  · exact .fails _ _
  · exact .rsEnc (by simp_all)

theorem cmdRsDec_effect : CommandEffect P s .rsDec (cmdRsDec P s) := by
  unfold cmdRsDec
  dsimp only
  split
  · exact .fails _ _
  split
  · exact .fails _ _
  split
  · exact .fails _ _
  split
  · exact .fails _ _
  · exact .rsDec _ _ (by simp_all) ‹_›

theorem cmdEnvBuild_effect : CommandEffect P s .envBuild (cmdEnvBuild P s) := by
  unfold cmdEnvBuild
  split
  · exact .fails _ _
  dsimp only
  split
  · exact .fails _ _
  split
  · exact .fails _ _
  split
  · exact .fails _ _
  split
  · exact .fails _ _
  · exact .envBuild _ _ ‹_› ‹_› (by simp_all)

theorem cmdEnvParse_effect : CommandEffect P s .envParse (cmdEnvParse P s) := by
  unfold cmdEnvParse
  split
  · exact .fails _ _
  split
  · exact .fails _ _
  split
  · exact .fails _ _
  split
  · exact .fails _ _
  · exact .envParse _ _ ‹_› ‹_› (by simp_all)

theorem cmdFrameEncode_effect : CommandEffect P s .frameEncode (cmdFrameEncode P s) := by
  unfold cmdFrameEncode
  split
  · exact .fails _ _
  dsimp only
  split
  · exact .fails _ _
  split
  · exact .fails _ _
  split
  · exact .fails _ _
  split
  · exact .fails _ _
  · exact .frameEncode _ _ _ ‹_› ‹_›

theorem cmdFrameDecode_effect : CommandEffect P s .frameDecode (cmdFrameDecode P s) := by
  unfold cmdFrameDecode
  split
  · exact .fails _ _
  split
  · exact .fails _ _
  dsimp only
  split
  · exact .frameDecodeScan _ _ ‹_› (by simp_all) ‹_›
  · exact .frameDecode _ _ ‹_› (by simp_all) ‹_›

/-- Every command's result is one that `CommandEffect` lists. -/
theorem commandResult_effect (i : Instr) : CommandEffect P s i (commandResult P i s) := by
  cases i with
  | nop => exact .nop
  | gridSetup => exact cmdGridSetup_effect P s
  | travReset => exact .travReset
  | travNext => exact cmdTravNext_effect P s
  | fbClear => exact cmdFbClear_effect P s
  | quant => exact .quant
  | dequantPix => exact .dequantPix
  | fillBlock => exact cmdFillBlock_effect P s
  | dequantBlock => exact cmdDequantBlock_effect P s
  | rsEnc => exact cmdRsEnc_effect P s
  | rsDec => exact cmdRsDec_effect P s
  | envBuild => exact cmdEnvBuild_effect P s
  | envParse => exact cmdEnvParse_effect P s
  | frameEncode => exact cmdFrameEncode_effect P s
  | frameDecode => exact cmdFrameDecode_effect P s
  | softReset => exact .softReset

end

/-! ### What commands leave unchanged -/

/-- What a command other than SOFT_RESET can change before its completion: the registers that 30_encoding R123 lists as
results. Everything else of the state is kept. -/
theorem CommandEffect.regs_eq {P : Params} {s : State} {i : Instr} {r : CmdResult} (h : CommandEffect P s i r)
    (hi : i ≠ .softReset) :
    r.regs = { s with
      gridCols := r.regs.gridCols, gridRows := r.regs.gridRows, gridN := r.regs.gridN, capacity := r.regs.capacity,
      travIdx := r.regs.travIdx, travX := r.regs.travX, travY := r.regs.travY,
      payloadLen := r.regs.payloadLen, envLen := r.regs.envLen, dataLen := r.regs.dataLen,
      dataNsym := r.regs.dataNsym, qrgb := r.regs.qrgb, dqByte := r.regs.dqByte, rsOutlen := r.regs.rsOutlen,
      decNerrData := r.regs.decNerrData, decNerrMeta := r.regs.decNerrMeta } := by
  cases h with
  | softReset => exact absurd rfl hi
  | _ => rfl

/-- A command's rule leaves the buffers to its stores, and the model's own fields alone (60_exceptions R310). -/
theorem CommandEffect.regs_keeps_buffers {P : Params} {s : State} {i : Instr} {r : CmdResult} (h : CommandEffect P s i r) :
    r.regs.pbuf = s.pbuf ∧ r.regs.ebuf = s.ebuf ∧ r.regs.fb = s.fb ∧ r.regs.epoch = s.epoch ∧
      r.regs.draws = s.draws ∧ r.regs.schedule = s.schedule ∧ r.regs.rdata = s.rdata := by
  cases h <;> exact ⟨rfl, rfl, rfl, rfl, rfl, rfl, rfl⟩

/-- The grid and traversal registers (10_state R41, R42) of two states agree. -/
abbrev State.SameTraversal (s t : State) : Prop :=
  t.gridCols = s.gridCols ∧ t.gridRows = s.gridRows ∧ t.gridN = s.gridN ∧ t.capacity = s.capacity ∧
    t.travIdx = s.travIdx ∧ t.travX = s.travX ∧ t.travY = s.travY

theorem State.SameTraversal.refl (s : State) : s.SameTraversal s := ⟨rfl, rfl, rfl, rfl, rfl, rfl, rfl⟩

theorem State.SameTraversal.trans {s t u : State} (h : s.SameTraversal t) (h' : t.SameTraversal u) :
    s.SameTraversal u := by
  obtain ⟨hcols, hrows, hn, hcap, hidx, hx, hy⟩ := h
  simpa only [State.SameTraversal, hcols, hrows, hn, hcap, hidx, hx, hy] using h'

/-- The commands outside 10_state R43's list keep the grid and traversal registers. -/
theorem CommandEffect.sameTraversal {P : Params} {s : State} {i : Instr} {r : CmdResult} (h : CommandEffect P s i r)
    (hi : i ∉ [Instr.gridSetup, .travReset, .travNext, .frameEncode, .frameDecode, .softReset]) :
    s.SameTraversal r.regs := by
  cases h with
  | gridSetup | travReset | travNext | frameEncode | frameDecodeScan | frameDecode | softReset => simp at hi
  | _ => exact .refl s

end Sys2Proof.Machine
end

section
/-! Stores of commands lie inside their buffers (20_memory R86), and the grid and traversal registers that commands leave
satisfy 10_state R41 and R42. -/

namespace Sys2Proof.Machine

/-! ### The stores of a command -/

/-- A store that writes nothing, or only bytes of its space (20_memory R86). -/
abbrev Store.InBounds (P : Params) (st : Store) : Prop :=
  st.bytes = [] ∨ st.off + st.bytes.length ≤ P.sizeOf st.space

theorem Store.inBounds_redrawn {P : Params} {st : Store} (draw : Nat) (h : st.InBounds P) :
    (st.redrawn draw).InBounds P := by
  obtain hnil | hle := h
  · exact .inl (by simp [Store.redrawn, hnil])
  · exact .inr (by simpa [Store.redrawn] using hle)

theorem Store.inBounds_of_inSpace {P : Params} {sp : Space} {off n : Nat} {bs : List Byte}
    (h : inSpace P sp off n = true) (hlen : bs.length = n) : (Store.mk sp off bs).InBounds P :=
  .inr (by simpa [inSpace, hlen] using h)

/-- A rectangle inside a frame that fits the pixel limit is filled inside the frame buffer. -/
theorem fillRect_inBounds {P : Params} {w h : Nat} {rect : Rect} {c : Rgb} (hx : rect.x1 < w) (hy : rect.y1 < h)
    (hfit : 3 * (w * h) ≤ P.fbBytes) {st : Store} (hst : st ∈ fillRect w rect c) : st.InBounds P := by
  obtain ⟨dy, hdy, rfl⟩ := (mem_fillRect w rect c st).1 hst
  obtain hx0 | hx0 := Nat.lt_or_ge rect.x1 rect.x0
  · exact .inl (by simp [Nat.sub_eq_zero_of_le hx0])
  have hrow : (rect.y0 + dy + 1) * w ≤ h * w := Nat.mul_le_mul_right w (by omega)
  rw [Nat.succ_mul, Nat.mul_comm h w] at hrow
  right
  simp only [pixelRun_length, fbAddr, Params.sizeOf]
  omega

/-- The rectangle of a block of the grid lies inside the frame (42_frame_geometry R181, R182). -/
theorem blockRectAt_lt_frame {P : Params} {s : State} {g : Grid} (hg : gridCompute P s = .ok g) {i : Nat}
    (hi : i < g.n) :
    (blockRectAt s g.cols i).x1 < s.frameW.toNat ∧ (blockRectAt s g.cols i).y1 < s.frameH.toNat := by
  obtain ⟨hbw, hbh, -⟩ := (gridCompute_eq_ok P s g).1 hg
  obtain ⟨hn, -, -, -, hcols, hrows⟩ := gridCompute_bound P s g hg
  rw [hn] at hi
  have hpos : 0 < g.cols := Nat.pos_of_ne_zero fun h0 => by simp [h0] at hi
  have hx : (i % g.cols + 1) * s.blockW.toNat ≤ g.cols * s.blockW.toNat :=
    Nat.mul_le_mul_right _ (Nat.mod_lt i hpos)
  have hy : (i / g.cols + 1) * s.blockH.toNat ≤ g.rows * s.blockH.toNat :=
    Nat.mul_le_mul_right _ (Nat.div_lt_of_lt_mul hi)
  have hx' : 0 < (i % g.cols + 1) * s.blockW.toNat := by positivity
  have hy' : 0 < (i / g.cols + 1) * s.blockH.toNat := by positivity
  simp only [blockRectAt, blockRect]
  omega

theorem blankStores_inBounds {P : Params} {s : State} (hw : s.frameW.toNat ≠ 0) (hh : s.frameH.toNat ≠ 0)
    (hfit : 3 * (s.frameW.toNat * s.frameH.toNat) ≤ P.fbBytes) {st : Store} (hst : st ∈ blankStores s) :
    st.InBounds P :=
  fillRect_inBounds (Nat.sub_one_lt hw) (Nat.sub_one_lt hh) hfit hst

/-- The fill loop of 44_frame_pipelines R261 stays inside the frame buffer, for indices of the grid. -/
theorem renderFrom_inBounds {P : Params} {s : State} {g : Grid} (hg : gridCompute P s = .ok g)
    (hfit : 3 * (s.frameW.toNat * s.frameH.toNat) ≤ P.fbBytes) {i : Nat} {bs : List Byte} (hi : i + bs.length ≤ g.n)
    {st : Store} (hst : st ∈ renderFrom s g.cols i bs) : st.InBounds P := by
  induction bs generalizing i with
  | nil => simp [renderFrom] at hst
  | cons b bs ih =>
    simp only [List.length_cons] at hi
    obtain hst | hst := List.mem_append.1 hst
    · obtain ⟨hx, hy⟩ := blockRectAt_lt_frame hg (i := i) (by omega)
      exact fillRect_inBounds hx hy hfit hst
    · exact ih (by omega) hst

theorem renderStores_inBounds {P : Params} {s : State} {g : Grid} (hP : 3 * P.maxPixels ≤ P.fbBytes)
    (hg : gridCompute P s = .ok g) {env : List Byte} (henv : env.length ≤ g.n) {st : Store}
    (hst : st ∈ renderStores s g.cols env) : st.InBounds P := by
  obtain ⟨-, -, hw, hh, hmax, -⟩ := (gridCompute_eq_ok P s g).1 hg
  have hfit : 3 * (s.frameW.toNat * s.frameH.toNat) ≤ P.fbBytes := by omega
  obtain hst | hst := List.mem_append.1 hst
  · exact blankStores_inBounds hw hh hfit hst
  · exact renderFrom_inBounds hg hfit (by omega) hst

/-- A built envelope fits the grid it was built for (43_fec_codec R241). -/
theorem buildEnvelope_length_le {P : Params} {payload : List Byte} {n : Nat} {env : Envelope}
    (h : buildEnvelope P payload n = .ok env) : env.bytes.length ≤ n := by
  obtain ⟨hle, rfl⟩ := (buildEnvelope_eq_ok P payload n env).1 h
  simp only [List.length_append, rsEncode_length, lenBytes_length]
  omega

@[simp] theorem scan_length (P : Params) (s : State) (cols n : Nat) : (scan P s cols n).length = n := by simp [scan]

/-- A command stores inside its buffers, in a block whose buffers hold the largest grid (20_memory R80, R86). -/
theorem CommandEffect.stores_inBounds {P : Params} (hP : P.buffersFit = true) {s : State} {i : Instr} {r : CmdResult}
    (h : CommandEffect P s i r) {st : Store} (hst : st ∈ r.stores) : st.InBounds P := by
  obtain ⟨hpbuf, hebuf, hfb⟩ : P.maxPixels ≤ P.pbufBytes ∧ P.maxPixels ≤ P.ebufBytes ∧ 3 * P.maxPixels ≤ P.fbBytes := by
    simpa [Params.buffersFit] using hP
  cases h with
  | fbClear hw hh hmax => exact blankStores_inBounds hw hh (by omega) hst
  | fillBlock rect hr =>
    obtain ⟨-, -, -, -, hmax, -, -, hx, hy⟩ := (currentRect_eq_ok P s rect).1 hr
    exact fillRect_inBounds hx hy (by omega) hst
  | rsEnc hdst =>
    obtain rfl := List.mem_singleton.1 hst
    exact Store.inBounds_of_inSpace hdst (by simp)
  | rsDec msg n hdst hd =>
    obtain rfl := List.mem_singleton.1 hst
    exact Store.inBounds_of_inSpace hdst (by simpa using rsDecode_length P _ _ _ _ hd)
  | envBuild g env hg he hin =>
    obtain rfl := List.mem_singleton.1 hst
    exact Store.inBounds_of_inSpace hin rfl
  | envParse g q hg hq hin =>
    obtain rfl := List.mem_singleton.1 hst
    exact Store.inBounds_of_inSpace hin rfl
  | frameEncode g k env hg he =>
    have hlen := buildEnvelope_length_le he
    obtain ⟨-, -, -, hmax, -⟩ := gridCompute_bound P s g hg
    obtain hst | hst := List.mem_append.1 hst
    · exact renderStores_inBounds hfb hg hlen hst
    · obtain rfl := List.mem_singleton.1 hst
      exact .inr (by simp only [Params.sizeOf]; omega)
  | frameDecodeScan g e hg hn hp =>
    obtain rfl := List.mem_singleton.1 hst
    exact Store.inBounds_of_inSpace hn (scan_length P s _ _)
  | frameDecode g q hg hn hp =>
    obtain ⟨-, -, -, hmax, -⟩ := gridCompute_bound P s g hg
    obtain ⟨-, hlen⟩ := parseEnvelope_payload_length P _ q hp
    obtain rfl | hst := List.mem_cons.1 hst
    · exact Store.inBounds_of_inSpace hn (scan_length P s _ _)
    · obtain rfl := List.mem_singleton.1 hst
      rw [scan_length] at hlen
      exact .inr (by simp only [Params.sizeOf]; omega)
  | _ => exact absurd hst List.not_mem_nil

/-! ### The grid and traversal registers a command leaves -/

theorem State.GridOk.congr {s t : State} (h : s.SameTraversal t) (hs : s.GridOk) : t.GridOk := by
  obtain ⟨hcols, hrows, hn, hcap, -⟩ := h
  simpa only [State.GridOk, hcols, hrows, hn, hcap] using hs

theorem State.TravOk.congr {s t : State} (h : s.SameTraversal t) (hs : s.TravOk) : t.TravOk := by
  obtain ⟨hcols, hrows, hn, -, hidx, hx, hy⟩ := h
  simpa only [State.TravOk, hcols, hrows, hn, hidx, hx, hy] using hs

/-- `TravSet(i)` for an index up to `GRID_N` stands at block `i` or at the end (10_state R42, 42_frame_geometry R183). -/
theorem travOk_travSet {s : State} (hgrid : s.GridOk) {i : Nat} (hi : i ≤ s.gridN.toNat) : (s.travSet i).TravOk := by
  obtain ⟨hn, -⟩ := hgrid
  have hidx : (BitVec.ofNat 32 i).toNat = i := by
    have := s.gridN.isLt
    rw [BitVec.toNat_ofNat]; omega
  simp only [State.TravOk, travSet_travIdx, travSet_gridN, travSet_gridCols, travSet_gridRows, travSet_travX,
    travSet_travY, hidx]
  obtain hlt | rfl := Nat.lt_or_eq_of_le hi
  · rw [hn] at hlt
    have hpos : 0 < s.gridCols.toNat := Nat.pos_of_ne_zero fun h0 => by simp [h0] at hlt
    have hmod := Nat.mod_lt i hpos
    have hdiv : i / s.gridCols.toNat < s.gridRows.toNat := Nat.div_lt_of_lt_mul hlt
    have hx : (BitVec.ofNat 16 (i % s.gridCols.toNat)).toNat = i % s.gridCols.toNat := by
      rw [BitVec.toNat_ofNat, Nat.mod_eq_of_lt (hmod.trans s.gridCols.isLt)]
    have hy : (BitVec.ofNat 16 (i / s.gridCols.toNat)).toNat = i / s.gridCols.toNat := by
      rw [BitVec.toNat_ofNat, Nat.mod_eq_of_lt (hdiv.trans s.gridRows.isLt)]
    rw [← hn] at hlt
    simp only [if_pos hlt, hx, hy]
    exact ⟨(Nat.div_add_mod' i _).symm, hmod⟩
  · simp

theorem gridOk_travSet {s : State} (i : Nat) (h : s.GridOk) : (s.travSet i).GridOk := h

/-- A committed grid is the computed one: nothing is lost in the registers' widths (42_frame_geometry R184; log 13). -/
theorem commitGrid_toNat {P : Params} (hP : P.maxPixels < 2 ^ 31) {s : State} {g : Grid}
    (hg : gridCompute P s = .ok g) :
    (s.commitGrid g).gridCols.toNat = g.cols ∧ (s.commitGrid g).gridRows.toNat = g.rows ∧
      (s.commitGrid g).gridN.toNat = g.n ∧ (s.commitGrid g).capacity.toInt = (g.n : Int) - 72 := by
  obtain ⟨-, hcols, hrows, hmax, -⟩ := gridCompute_bound P s g hg
  have hcap : g.cap = (g.n : Int) - 72 := by
    obtain ⟨-, -, -, -, -, rfl⟩ := (gridCompute_eq_ok P s g).1 hg
    simp only [Config.metadataSize, Config.dataParityMax]
    omega
  refine ⟨?_, ?_, ?_, ?_⟩
  · rw [commitGrid_gridCols, BitVec.toNat_ofNat, Nat.mod_eq_of_lt hcols]
  · rw [commitGrid_gridRows, BitVec.toNat_ofNat, Nat.mod_eq_of_lt hrows]
  · rw [commitGrid_gridN, BitVec.toNat_ofNat, Nat.mod_eq_of_lt (by omega)]
  · rw [commitGrid_capacity, BitVec.toInt_ofInt, hcap, Int.bmod_eq_of_le (by omega) (by omega)]

theorem gridOk_commitGrid {P : Params} (hP : P.maxPixels < 2 ^ 31) {s : State} {g : Grid}
    (hg : gridCompute P s = .ok g) : (s.commitGrid g).GridOk := by
  obtain ⟨hcols, hrows, hn, hcap⟩ := commitGrid_toNat hP hg
  obtain ⟨hprod, -⟩ := gridCompute_bound P s g hg
  exact ⟨by rw [hcols, hrows, hn, hprod], .inl (by rw [hcap, hn])⟩

/-- A new grid with the traversal at an index up to its `N`: what GRID_SETUP, FRAME_ENCODE and FRAME_DECODE commit. -/
theorem gridOk_travOk_commit {P : Params} (hP : P.maxPixels < 2 ^ 31) {s : State} {g : Grid}
    (hg : gridCompute P s = .ok g) {i : Nat} (hi : i ≤ g.n) :
    ((s.commitGrid g).travSet i).GridOk ∧ ((s.commitGrid g).travSet i).TravOk := by
  have hgrid := gridOk_commitGrid hP hg
  obtain ⟨-, -, hn, -⟩ := commitGrid_toNat hP hg
  exact ⟨gridOk_travSet i hgrid, travOk_travSet hgrid (by rw [hn]; exact hi)⟩

/-- A command keeps the relations of 10_state R41 and R42. -/
theorem CommandEffect.gridOk_travOk {P : Params} (hP : P.maxPixels < 2 ^ 31) {s : State} {i : Instr} {r : CmdResult}
    (h : CommandEffect P s i r) (hgrid : s.GridOk) (htrav : s.TravOk) : r.regs.GridOk ∧ r.regs.TravOk := by
  cases h with
  | gridSetup g hg => exact gridOk_travOk_commit hP hg (Nat.zero_le _)
  | travReset => exact ⟨gridOk_travSet 0 hgrid, travOk_travSet hgrid (Nat.zero_le _)⟩
  | travNext hlt => exact ⟨gridOk_travSet _ hgrid, travOk_travSet hgrid hlt⟩
  | frameEncode g k env hg he => exact gridOk_travOk_commit hP hg (buildEnvelope_length_le he)
  | frameDecodeScan g e hg => exact gridOk_travOk_commit hP hg le_rfl
  | frameDecode g q hg => exact gridOk_travOk_commit hP hg le_rfl
  | softReset => exact ⟨⟨rfl, .inr ⟨rfl, rfl, rfl⟩⟩, ⟨rfl, rfl, rfl⟩⟩
  | _ => exact ⟨hgrid, htrav⟩

end Sys2Proof.Machine
end

section
/-! What a host access and a step can do, said once, and from it the invariant and the statements about the whole machine
(10_state R43, R60 to R62; 70_reset R340, R360). -/

namespace Sys2Proof.Machine

/-! ### What a host access can do -/

/-- The results of a host access (20_memory R90 to R93, 10_state R34, 70_reset R350). -/
inductive AccessEffect (P : Params) (s : State) : State → Prop
  | ignored : AccessEffect P s s
  | read (b : Bool) (x : Word) (d : Nat) (hd : s.draws ≤ d) :
      AccessEffect P s { s with busErr := b, rdata := x, draws := d }
  | illegalWrite : AccessEffect P s { s with busErr := true }
  | refused : AccessEffect P s { s with ovr := true }
  | ctrl (b : Bool) : AccessEffect P s { s with irqEn := b }
  | status (v : Word) : AccessEffect P s (s.clearStatus v)
  | command (w : Word) (hidle : s.busy = false) : AccessEffect P s (s.accept w)
  | operand (r : Reg) (v : Word) (hidle : s.busy = false) : AccessEffect P s (writeOperand r v s)
  | store (st : Store) (hidle : s.busy = false) (hin : st.InBounds P) : AccessEffect P s (s.applyStore st)

theorem valueBytes_length (v : Word) (w : Width) : (valueBytes v w).length = widthBytes w := by
  cases w <;> rfl

theorem hostRead_effect (P : Params) (addr : Word) (w : Width) (s : State) :
    AccessEffect P s (hostRead P addr w s) := by
  unfold hostRead
  split
  · exact .read true 0 s.draws le_rfl
  · split
    · exact .read s.busErr _ s.draws le_rfl
    · exact .read s.busErr 0 s.draws le_rfl
  · split
    · exact .read s.busErr _ (s.draws + 1) (Nat.le_succ _)
    · exact .read s.busErr _ s.draws le_rfl

theorem writeReg_effect (P : Params) (r : Reg) (v : Word) (s : State) : AccessEffect P s (writeReg r v s) := by
  unfold writeReg
  split
  · exact .ctrl _
  · exact .status v
  · split
    · exact .refused
    · exact .command v (by simpa using ‹¬ s.busy = true›)
  · split
    · split
      · exact .refused
      · exact .operand r v (by simpa using ‹¬ s.busy = true›)
    · exact .ignored

theorem hostWrite_effect (P : Params) (addr : Word) (w : Width) (v : Word) (s : State) :
    AccessEffect P s (hostWrite P addr w v s) := by
  unfold hostWrite
  split
  · exact .illegalWrite
  · split
    · exact writeReg_effect P _ v s
    · exact .ignored
  · rename_i sp off htarget
    split
    · exact .refused
    · obtain ⟨-, hlen, -⟩ := target_eq_buf P addr w sp off htarget
      exact .store _ (by simpa using ‹¬ s.busy = true›) (.inr (by rw [valueBytes_length]; exact hlen))

/-- Every host access does one of the things that `AccessEffect` lists. -/
theorem hostAccess_effect (P : Params) (a : HostAccess) (s : State) : AccessEffect P s (hostAccess P a s) := by
  cases a with
  | read addr w => exact hostRead_effect P addr w s
  | write addr w v => exact hostWrite_effect P addr w v s

section
variable (s : State) (r : Reg) (v : Word)

/-- A RW register's write leaves everything but the 13 RW registers (10_state R34). -/
theorem writeOperand_eq : writeOperand r v s = { s with
    frameW := (writeOperand r v s).frameW, frameH := (writeOperand r v s).frameH,
    blockW := (writeOperand r v s).blockW, blockH := (writeOperand r v s).blockH,
    streamLen := (writeOperand r v s).streamLen, payloadLen := (writeOperand r v s).payloadLen,
    qbyte := (writeOperand r v s).qbyte, dqRgb := (writeOperand r v s).dqRgb, rsSrc := (writeOperand r v s).rsSrc,
    rsDst := (writeOperand r v s).rsDst, rsLen := (writeOperand r v s).rsLen, rsNsym := (writeOperand r v s).rsNsym,
    bgRgb := (writeOperand r v s).bgRgb } := by
  unfold writeOperand
  split <;> rfl

end

/-- No host access moves the grid or the traversal (10_state R43). -/
theorem AccessEffect.sameTraversal {P : Params} {s t : State} (h : AccessEffect P s t) : s.SameTraversal t := by
  cases h with
  | operand r v => rw [writeOperand_eq]; exact .refl s
  | store st => simp [State.SameTraversal]
  | _ => exact .refl s

/-- The events to come are not the host's to change (log 1). -/
theorem AccessEffect.schedule_eq {P : Params} {s t : State} (h : AccessEffect P s t) : t.schedule = s.schedule := by
  cases h with
  | operand r v => rw [writeOperand_eq]
  | store st => exact applyStore_schedule s st
  | _ => rfl

/-- While a command is pending no host access removes or replaces it (70_reset R350 a). -/
theorem AccessEffect.pending_eq_of_busy {P : Params} {s t : State} (h : AccessEffect P s t) (hb : s.busy = true) :
    t.pending = s.pending := by
  cases h with
  | command w hidle => simp [hb] at hidle
  | operand r v => rw [writeOperand_eq]
  | store st => exact applyStore_pending s st
  | _ => rfl

/-! ### The invariant, kept by each part of a step -/

theorem mem_allErrors (e : CmdError) : e ∈ allErrors := by cases e <;> decide

/-- A record of 60_exceptions R301, or none without `ERR`: the part of `StatusOk` that does not depend on `BUSY`. -/
abbrev State.RecordOk (s : State) : Prop :=
  (s.err = false → s.errCode = 0 ∧ s.errDetail = 0) ∧
    (s.err = true → ∃ e ∈ allErrors, s.errCode = e.code ∧ s.errDetail = e.detail)

theorem State.StatusOk.recordOk {s : State} (h : s.StatusOk) : s.RecordOk := ⟨h.1, h.2.1⟩

theorem State.statusOk_of_idle {s : State} (h : s.RecordOk) (hidle : s.pending = none) : s.StatusOk :=
  ⟨h.1, h.2, by simp [State.busy, hidle]⟩

theorem recordOk_complete {s : State} (h : s.RecordOk) (o : Option CmdError) : (s.complete o).RecordOk := by
  cases o with
  | none => exact h
  | some e => exact ⟨by simp, fun _ => ⟨e, mem_allErrors e, rfl, rfl⟩⟩

/-- The error record before a command's completion: as it was, or cleared by SOFT_RESET. -/
theorem CommandEffect.errRecord {P : Params} {s : State} {i : Instr} {r : CmdResult} (h : CommandEffect P s i r) :
    (r.regs.err = s.err ∧ r.regs.errCode = s.errCode ∧ r.regs.errDetail = s.errDetail) ∨
      (i = .softReset ∧ r.regs.err = false ∧ r.regs.errCode = 0 ∧ r.regs.errDetail = 0) := by
  by_cases hi : i = .softReset
  · subst hi
    cases h with
    | softReset => exact .inr ⟨rfl, rfl, rfl, rfl⟩
    | fails => exact .inl ⟨rfl, rfl, rfl⟩
  · rw [h.regs_eq hi]
    exact .inl ⟨rfl, rfl, rfl⟩

theorem CommandEffect.recordOk {P : Params} {s : State} {i : Instr} {r : CmdResult} (h : CommandEffect P s i r)
    (hs : s.RecordOk) : r.regs.RecordOk := by
  obtain ⟨herr, hcode, hdetail⟩ | ⟨-, herr, hcode, hdetail⟩ := h.errRecord
  · simpa only [State.RecordOk, herr, hcode, hdetail] using hs
  · exact ⟨fun _ => ⟨hcode, hdetail⟩, by simp [herr]⟩

/-- Performing stores and completing keeps the grid and traversal registers a command's rule has left. -/
theorem finish_sameTraversal (r : CmdResult) : r.regs.SameTraversal r.finish := by
  simp [State.SameTraversal, CmdResult.finish]

theorem buffersOk_complete {s : State} (h : s.BuffersOk) (o : Option CmdError) : (s.complete o).BuffersOk := by
  simpa only [State.BuffersOk, complete_pbuf, complete_ebuf, complete_fb] using h

/-- A command, performed and completed, keeps the invariant. -/
theorem CommandEffect.finish_inv {s : State} {i : Instr} {r : CmdResult} (h : CommandEffect Config.params s i r)
    (hs : s.Inv) : r.finish.Inv := by
  obtain ⟨hbuf, hgrid, htrav, hstatus, hdraws⟩ := hs
  obtain ⟨hpbuf, hebuf, hfb, hepoch, hdrawn, -⟩ := h.regs_keeps_buffers
  obtain ⟨hgrid', htrav'⟩ := h.gridOk_travOk (by decide) hgrid htrav
  have hregs : r.regs.BuffersOk := by simpa only [State.BuffersOk, hpbuf, hebuf, hfb] using hbuf
  have hrecord : (r.regs.applyStores r.stores).RecordOk := by
    simpa only [State.RecordOk, applyStores_err, applyStores_errCode, applyStores_errDetail]
      using h.recordOk hstatus.recordOk
  refine ⟨?_, hgrid'.congr (finish_sameTraversal r), htrav'.congr (finish_sameTraversal r), ?_, ?_⟩
  · exact buffersOk_complete
      (State.buffersOk_applyStores _ _ hregs fun st hst => h.stores_inBounds (by decide) hst) _
  · exact State.statusOk_of_idle (recordOk_complete hrecord _) (complete_pending _ _)
  · simpa only [State.DrawsOk, CmdResult.finish, complete_epoch, complete_draws, applyStores_epoch, applyStores_draws,
      hepoch, hdrawn] using hdraws

theorem rejected_inv {s : State} (hs : s.Inv) (e : CmdError) : (s.failed e.code e.detail).Inv :=
  (CommandEffect.fails (P := Config.params) .nop e).finish_inv hs

theorem engineTurn_inv {s t : State} (hs : s.Inv) (h : engineTurn s = .next t) : t.Inv := by
  obtain ⟨-, hturn⟩ | ⟨w, i, -, -, hturn⟩ | ⟨w, e, -, -, hturn⟩ := engineTurn_cases s
  · cases hturn.symm.trans h; exact hs
  · rw [exec_eq_finish] at hturn
    cases hturn.symm.trans h
    exact (commandResult_effect Config.params s i).finish_inv hs
  · cases hturn.symm.trans h; exact rejected_inv hs _

/-- `STATUS`'s write-one-to-clear keeps the record legal: clearing `ERR` clears its codes too (10_state R33). -/
theorem statusOk_clearStatus {s : State} (v : Word) (h : s.StatusOk) : (s.clearStatus v).StatusOk := by
  obtain ⟨hnone, hsome, hbusy⟩ := h
  refine ⟨?_, ?_, fun hb => ?_⟩ <;>
    simp only [clearStatus_done, clearStatus_err, clearStatus_errCode, clearStatus_errDetail, clearStatus_pending,
      clearStatus_cmd]
  · cases v.getLsbD 2
    · simpa using hnone
    · simp
  · cases v.getLsbD 2
    · simpa using hsome
    · simp
  · obtain ⟨hdone, herr, hcmd⟩ := hbusy hb
    simp [hdone, herr, hcmd]

theorem statusOk_accept (s : State) (w : Word) : (s.accept w).StatusOk :=
  ⟨fun _ => ⟨rfl, rfl⟩, by simp, fun _ => ⟨rfl, rfl, rfl⟩⟩

/-- A host access keeps the invariant. -/
theorem AccessEffect.inv {s t : State} (h : AccessEffect Config.params s t) (hs : s.Inv) : t.Inv := by
  have hsame := h.sameTraversal
  obtain ⟨hbuf, hgrid, htrav, hstatus, hdraws⟩ := hs
  refine ⟨?_, hgrid.congr hsame, htrav.congr hsame, ?_, ?_⟩
  · cases h with
    | operand r v => rw [writeOperand_eq]; exact hbuf
    | store st hidle hin => exact State.buffersOk_applyStores s [st] hbuf (by simpa using hin)
    | _ => exact hbuf
  · cases h with
    | status v => exact statusOk_clearStatus v hstatus
    | command w => exact statusOk_accept s w
    | operand r v => rw [writeOperand_eq]; exact hstatus
    | store st hidle =>
      refine State.statusOk_of_idle ?_ ?_
      · simpa only [State.RecordOk, applyStore_err, applyStore_errCode, applyStore_errDetail] using hstatus.recordOk
      · simpa [State.busy] using hidle
    | _ => exact hstatus
  · cases h with
    | read b x d hd => exact hdraws.trans_le hd
    | operand r v => rw [writeOperand_eq]; exact hdraws
    | store st => simpa only [State.DrawsOk, applyStore_epoch, applyStore_draws] using hdraws
    | _ => exact hdraws

/-- The stores of a pending command lie inside their buffers (70_reset R341, log 6). -/
theorem pendingStores_inBounds {P : Params} (hP : P.buffersFit = true) {s : State} {st : Store}
    (hst : st ∈ pendingStores P s) : st.InBounds P := by
  unfold pendingStores at hst
  split at hst
  · exact absurd hst List.not_mem_nil
  · split at hst
    · exact (commandResult_effect P s _).stores_inBounds hP hst
    · exact absurd hst List.not_mem_nil

/-- Every register of `t` stands at its reset value and nothing is pending (70_reset R340). -/
abbrev State.RegsReset (t : State) : Prop :=
  t = { State.reset with
    pbuf := t.pbuf, ebuf := t.ebuf, fb := t.fb, schedule := t.schedule, rdata := t.rdata, epoch := t.epoch,
    draws := t.draws }

theorem hardReset_regsReset (s : State) : (hardReset Config.params s).RegsReset := by
  unfold hardReset
  split <;> rfl

/-- The reset's registers meet the register part of the invariant, whatever the buffers hold. -/
theorem State.RegsReset.inv {t : State} (h : t.RegsReset) (hbuf : t.BuffersOk) (hdraws : t.DrawsOk) : t.Inv := by
  refine ⟨hbuf, ?_, ?_, ?_, hdraws⟩ <;> rw [h]
  · exact ⟨rfl, .inr ⟨rfl, rfl, rfl⟩⟩
  · exact ⟨rfl, rfl, rfl⟩
  · exact ⟨fun _ => ⟨rfl, rfl⟩, by simp [State.reset], by simp [State.busy, State.reset]⟩

/-- The reset input keeps the invariant, busy or idle. -/
theorem hardReset_inv {s : State} (hs : s.Inv) : (hardReset Config.params s).Inv := by
  obtain ⟨hbuf, -, -, -, hdraws⟩ := hs
  refine (hardReset_regsReset s).inv ?_ ?_
  · unfold hardReset
    split
    · refine State.buffersOk_applyStores s _ hbuf fun st hst => ?_
      obtain ⟨st', hst', rfl⟩ := List.mem_map.1 hst
      exact Store.inBounds_redrawn _ (pendingStores_inBounds (by decide) hst')
    · exact reset_buffersOk
  · unfold hardReset
    split
    · simpa [State.DrawsOk] using hdraws.trans (Nat.lt_succ_self _)
    · exact Nat.lt_succ_self s.draws

/-- Settles O59. A step is the engine's turn, a host access or the reset input, and each keeps the invariant. -/
theorem stepKeepsInvariant : Obligations.StepKeepsInvariant := by
  intro s t hs h
  obtain ⟨-, hstep⟩ | ⟨es, -, hstep⟩ | ⟨a, es, -, hstep⟩ | ⟨es, -, hstep⟩ := step_cases s
  · exact engineTurn_inv hs (hstep.symm.trans h)
  · exact engineTurn_inv (s := { s with schedule := es }) hs (hstep.symm.trans h)
  · cases hstep.symm.trans h
    exact (hostAccess_effect _ a { s with schedule := es }).inv hs
  · cases hstep.symm.trans h
    exact hardReset_inv (s := { s with schedule := es }) hs

/-- Settles O58. The registers stand at their reset values and no buffer lists a byte. -/
theorem resetHasInvariant : Obligations.ResetHasInvariant :=
  State.RegsReset.inv rfl reset_buffersOk Nat.zero_lt_one

/-! ### Completion -/

/-- Settles O5. The completion sets the record of an error; without one the record is what the rule has left. -/
theorem everyCommandCompletes : Obligations.EveryCommandCompletes := by
  intro i s
  have h := commandResult_effect Config.params s i
  refine ⟨_, exec_eq_finish i s, complete_pending _ _, complete_done _ _, ?_⟩
  simp only [CmdResult.finish]
  cases (commandResult Config.params i s).outcome with
  | some e => exact .inl ⟨rfl, e, mem_allErrors e, rfl, rfl⟩
  | none => simpa using .inr h.errRecord

/-! ### Steps and the traversal registers -/

/-- Settles O56. The engine's turn runs a command outside the list or none, and a host access moves neither grid nor
traversal. -/
theorem onlyGridCommandsMoveTraversal : Obligations.OnlyGridCommandsMoveTraversal := by
  intro s t h hreset hcmd
  have hturn : ∀ es, (s.schedule.head? = none ∨ s.schedule.head? = some .engine) →
      engineTurn { s with schedule := es } = .next t → s.SameTraversal t := by
    intro es hhead ht
    obtain ⟨-, hturn⟩ | ⟨w, i, hw, hi, hturn⟩ | ⟨w, e, -, -, hturn⟩ := engineTurn_cases { s with schedule := es }
    · cases hturn.symm.trans ht; exact .refl s
    · rw [exec_eq_finish] at hturn
      cases hturn.symm.trans ht
      have hrule := (commandResult_effect Config.params { s with schedule := es } i).sameTraversal (hcmd hhead w i hw hi)
      exact State.SameTraversal.trans (s := { s with schedule := es }) hrule (finish_sameTraversal _)
    · cases hturn.symm.trans ht; exact .refl s
  obtain ⟨hs, hstep⟩ | ⟨es, hs, hstep⟩ | ⟨a, es, -, hstep⟩ | ⟨es, hs, -⟩ := step_cases s
  · exact hturn s.schedule (.inl (by simp [hs])) (hstep.symm.trans h)
  · exact hturn es (.inr (by simp [hs])) (hstep.symm.trans h)
  · cases hstep.symm.trans h
    exact (hostAccess_effect _ a { s with schedule := es }).sameTraversal
  · simp [hs] at hreset

end Sys2Proof.Machine
end

section
/-! The engine's turn and what becomes of an accepted command (10_state R60, R62; 70_reset R341, R360). -/

namespace Sys2Proof.Machine

/-! ### The step, event by event -/

theorem step_of_schedule_nil {s : State} (h : s.schedule = []) : step s = engineTurn s := by
  simp only [step, h]

theorem step_of_schedule_engine {s : State} {es : List Event} (h : s.schedule = .engine :: es) :
    step s = engineTurn { s with schedule := es } := by
  simp only [step, h]

theorem engineTurn_of_idle {s : State} (h : s.pending = none) : engineTurn s = .next s := by
  simp only [engineTurn, h]

theorem engineTurn_of_decode {s : State} {w : Word} {i : Instr} (h : s.pending = some w) (hi : decode w = .ok i) :
    engineTurn s = exec i s := by
  simp only [engineTurn, h, hi]

/-- Settles O4: by the engine's turn, which both an engine event and the used-up schedule give. -/
theorem stepRunsDecodedCommand : Obligations.StepRunsDecodedCommand := by
  refine fun s => ⟨fun w i hw hi => ⟨fun h => ?_, fun es h => ?_⟩, fun hidle => ⟨fun h => ?_, fun es h => ?_⟩⟩
  · rw [step_of_schedule_nil h, engineTurn_of_decode hw hi]
  · exact (step_of_schedule_engine h).trans (engineTurn_of_decode hw hi)
  · rw [step_of_schedule_nil h, engineTurn_of_idle hidle]
  · exact (step_of_schedule_engine h).trans (engineTurn_of_idle hidle)

/-! ### An accepted command completes -/

/-- The engine's turn with a command pending performs it or rejects its word; either way it completes. -/
theorem engineTurn_completes {s : State} (h : s.busy = true) :
    ∃ t, engineTurn s = .next t ∧ t.pending = none ∧ t.done = true := by
  obtain ⟨hidle, -⟩ | ⟨w, i, -, -, hturn⟩ | ⟨w, e, -, -, hturn⟩ := engineTurn_cases s
  · simp [State.busy, hidle] at h
  · rw [exec_eq_finish] at hturn
    exact ⟨_, hturn, complete_pending _ _, complete_done _ _⟩
  · exact ⟨_, hturn, rfl, rfl⟩

/-- What a step does while a command is pending: it completes the command, serves the host and leaves the command pending,
or resets. -/
theorem step_cases_of_busy {s : State} (h : s.busy = true) :
    (∃ t, step s = .next t ∧ t.pending = none ∧ t.done = true) ∨
    (∃ a es t, s.schedule = .access a :: es ∧ step s = .next t ∧ t.schedule = es ∧ t.pending = s.pending) ∨
    (∃ t, Event.hardReset ∈ s.schedule ∧ step s = .next t ∧ t.pending = none) := by
  obtain ⟨-, hstep⟩ | ⟨es, -, hstep⟩ | ⟨a, es, hs, hstep⟩ | ⟨es, hs, hstep⟩ := step_cases s
  · left
    rw [hstep]
    exact engineTurn_completes h
  · left
    rw [hstep]
    exact engineTurn_completes (s := { s with schedule := es }) h
  · have heffect := hostAccess_effect Config.params a { s with schedule := es }
    exact .inr (.inl ⟨a, es, _, hs, hstep, heffect.schedule_eq, heffect.pending_eq_of_busy h⟩)
  · have hreset := hardReset_regsReset { s with schedule := es }
    exact .inr (.inr ⟨_, by simp [hs], hstep, by rw [hreset]; rfl⟩)

theorem busy_congr {s t : State} (h : t.pending = s.pending) : t.busy = s.busy := by simp only [State.busy, h]

theorem not_busy_of_pending {s : State} (h : s.pending = none) : s.busy = false := by simp [State.busy, h]

/-- A run of `k + 1` steps is a step and a run of `k`. -/
theorem run_succ_of_step {s t : State} (h : step s = .next t) (k : Nat) :
    Host.Core.run Sys2Proof.core (k + 1) s = Host.Core.run Sys2Proof.core k t := by
  have hcore : Sys2Proof.core.step s = .next t := h
  simp only [Host.Core.run, hcore]

/-- A pending command does not outlast the schedule (70_reset R360, log 1). -/
theorem run_reaches_idle (es : List Event) (s : State) (hes : s.schedule = es) (h : s.busy = true) :
    ∃ k ≤ es.length + 1, ∃ t, Host.Core.run Sys2Proof.core k s = .next t ∧ t.busy = false := by
  induction es generalizing s with
  | nil =>
    obtain ⟨t, hstep, hidle, -⟩ | ⟨a, es, t, hs, -⟩ | ⟨t, hs, -⟩ := step_cases_of_busy h
    · exact ⟨1, le_rfl, t, run_succ_of_step hstep 0, not_busy_of_pending hidle⟩
    · simp [hes] at hs
    · simp [hes] at hs
  | cons e es ih =>
    obtain ⟨t, hstep, hidle, -⟩ | ⟨a, es', t, hs, hstep, ht, hpending⟩ | ⟨t, -, hstep, hidle⟩ := step_cases_of_busy h
    · exact ⟨1, by omega, t, run_succ_of_step hstep 0, not_busy_of_pending hidle⟩
    · obtain ⟨-, rfl⟩ := List.cons.inj (hes.symm.trans hs)
      obtain ⟨k, hk, u, hrun, hu⟩ := ih t ht ((busy_congr hpending).trans h)
      exact ⟨k + 1, by simpa using hk, u, (run_succ_of_step hstep k).trans hrun, hu⟩
    · exact ⟨1, by omega, t, run_succ_of_step hstep 0, not_busy_of_pending hidle⟩

/-- With no reset scheduled, the pending command is still there when the step comes that completes it (10_state R62). -/
theorem run_reaches_completion (es : List Event) (s : State) (hes : s.schedule = es) (h : s.busy = true)
    (hreset : Event.hardReset ∉ es) :
    ∃ k ≤ es.length, ∃ u t : State, Host.Core.run Sys2Proof.core k s = .next u ∧ u.pending = s.pending ∧
      step u = .next t ∧ t.pending = none ∧ t.done = true := by
  induction es generalizing s with
  | nil =>
    obtain ⟨t, hstep, hdone⟩ | ⟨a, es, t, hs, -⟩ | ⟨t, hs, -⟩ := step_cases_of_busy h
    · exact ⟨0, le_rfl, s, t, rfl, rfl, hstep, hdone⟩
    · simp [hes] at hs
    · simp [hes] at hs
  | cons e es ih =>
    obtain ⟨t, hstep, hdone⟩ | ⟨a, es', t, hs, hstep, ht, hpending⟩ | ⟨t, hs, -⟩ := step_cases_of_busy h
    · exact ⟨0, Nat.zero_le _, s, t, rfl, rfl, hstep, hdone⟩
    · obtain ⟨-, rfl⟩ := List.cons.inj (hes.symm.trans hs)
      obtain ⟨k, hk, u, v, hrun, hu, hstep', hdone⟩ :=
        ih t ht ((busy_congr hpending).trans h) (fun hmem => hreset (List.mem_cons_of_mem _ hmem))
      exact ⟨k + 1, by simpa using hk, u, v, (run_succ_of_step hstep k).trans hrun, hu.trans hpending, hstep', hdone⟩
    · exact absurd (hes ▸ hs) hreset

/-- Settles O57, by induction on the schedule: a host access leaves the command pending and shortens the schedule, every
other event ends it. -/
theorem acceptedCommandCompletes : Obligations.AcceptedCommandCompletes :=
  fun s h => ⟨run_reaches_idle s.schedule s rfl h, run_reaches_completion s.schedule s rfl h⟩

end Sys2Proof.Machine
end

section
/-! The register file as numbers (10_state R31, R33, R44, R46). -/

namespace Sys2Proof.Machine

/-! ### Fields of a word -/

/-- Concatenation as numbers: the upper field counts in units of the lower field's range. -/
theorem toNat_append_eq_add {m n : Nat} (x : BitVec m) (y : BitVec n) :
    (x ++ y).toNat = x.toNat * 2 ^ n + y.toNat := by
  rw [BitVec.toNat_append, ← Nat.shiftLeft_add_eq_or_of_lt y.isLt, Nat.shiftLeft_eq]

/-- A field read into a word keeps its number. -/
theorem toNat_setWidth_word {n : Nat} (x : BitVec n) (h : n ≤ 32) : (x.setWidth 32).toNat = x.toNat := by
  rw [BitVec.toNat_setWidth, Nat.mod_eq_of_lt (x.isLt.trans_le (Nat.pow_le_pow_right two_pos h))]

theorem packRgb_toNat (c : Rgb) : (packRgb c).toNat = 65536 * c.b.toNat + 256 * c.g.toNat + c.r.toNat := by
  simp only [packRgb, toNat_append_eq_add, BitVec.toNat_ofNat]
  omega

/-- A color written to a register: the defined fields are kept, bits [31:24] are dropped (10_state R34, R46). -/
theorem packRgb_unpackRgb (v : Word) : packRgb (unpackRgb v) = v &&& 0x00FFFFFF#32 := by
  apply BitVec.eq_of_toNat_eq
  rw [packRgb_toNat, BitVec.toNat_and]
  simp only [unpackRgb, BitVec.extractLsb'_toNat, BitVec.toNat_ofNat, Nat.shiftRight_eq_div_pow]
  rw [show 0x00FFFFFF % 2 ^ 32 = 2 ^ 24 - 1 from rfl, Nat.and_two_pow_sub_one_eq_mod]
  omega

/-- A field of `k` bits written and read back: the other bits are dropped (10_state R34). -/
theorem setWidth_setWidth_eq_and (v : Word) {k : Nat} (hk : k ≤ 32) :
    (v.setWidth k).setWidth 32 = v &&& BitVec.ofNat 32 (2 ^ k - 1) := by
  apply BitVec.eq_of_toNat_eq
  have hpow : 2 ^ k ≤ 2 ^ 32 := Nat.pow_le_pow_right two_pos hk
  rw [toNat_setWidth_word _ hk, BitVec.toNat_setWidth, BitVec.toNat_and, BitVec.toNat_ofNat,
    Nat.mod_eq_of_lt (a := 2 ^ k - 1) (by omega), Nat.and_two_pow_sub_one_eq_mod]

/-! ### What each register reads as -/

/-- `STATUS` as a number, field by field (10_state R33). -/
theorem statusWord_toNat (s : State) : s.statusWord.toNat =
    s.busy.toNat + 2 * s.done.toNat + 4 * s.err.toNat + 8 * s.ovr.toNat + 16 * s.busErr.toNat +
      (if s.gridN.toNat ≤ s.travIdx.toNat then 32 else 0) + 256 * s.errCode.toNat + 65536 * s.errDetail.toNat := by
  have htrav : 32 * s.travDone.toNat = if s.gridN.toNat ≤ s.travIdx.toNat then 32 else 0 := by
    unfold State.travDone
    split <;> simp [*]
  simp only [State.statusWord, toNat_append_eq_add, BitVec.toNat_ofBool, BitVec.toNat_ofNat, ← htrav]
  omega

theorem coord_natCast_toNat (n : Nat) : (coord n).toNat = n % 2 ^ 16 := by
  rw [coord, BitVec.ofInt_natCast, BitVec.toNat_ofNat]

/-- The upper bound of a block on one axis; a block of dimension 0 has the bound −1 (10_state R44). -/
theorem coord_upper_toNat (x b : Nat) :
    (coord (((x : Int) + 1) * b - 1)).toNat = if b = 0 then 0xFFFF else ((x + 1) * b - 1) % 2 ^ 16 := by
  split
  · subst b
    simp [coord]
  · have hpos : 0 < (x + 1) * b := by positivity
    rw [show ((x : Int) + 1) * b - 1 = (((x + 1) * b - 1 : Nat) : Int) by push_cast [Nat.sub_add_cancel, hpos]; omega,
      coord_natCast_toNat]

/-- The number each register reads as (10_state R31); at the default parameters. -/
def regNumber (s : State) : Reg → Nat
  | .id         => 0x44325601
  | .ctrl       => s.irqEn.toNat
  | .status     => (readReg Config.params s .status).toNat
  | .cmd        => s.cmd.toNat
  | .frameW     => s.frameW.toNat
  | .frameH     => s.frameH.toNat
  | .blockW     => s.blockW.toNat
  | .blockH     => s.blockH.toNat
  | .gridCols   => s.gridCols.toNat
  | .gridRows   => s.gridRows.toNat
  | .gridN      => s.gridN.toNat
  | .capacity   => s.capacity.toNat
  | .travIdx    => s.travIdx.toNat
  | .travXy     => 65536 * s.travY.toNat + s.travX.toNat
  | .rectXy0    => (readReg Config.params s .rectXy0).toNat
  | .rectXy1    => (readReg Config.params s .rectXy1).toNat
  | .streamLen  => s.streamLen.toNat
  | .payloadLen => s.payloadLen.toNat
  | .envLen     => s.envLen.toNat
  | .dataLen    => s.dataLen.toNat
  | .dataNsym   => s.dataNsym.toNat
  | .qbyte      => s.qbyte.toNat
  | .qrgb       => 65536 * s.qrgb.b.toNat + 256 * s.qrgb.g.toNat + s.qrgb.r.toNat
  | .dqRgb      => 65536 * s.dqRgb.b.toNat + 256 * s.dqRgb.g.toNat + s.dqRgb.r.toNat
  | .dqByte     => s.dqByte.toNat
  | .rsSrc      => s.rsSrc.toNat
  | .rsDst      => s.rsDst.toNat
  | .rsLen      => s.rsLen.toNat
  | .rsNsym     => s.rsNsym.toNat
  | .rsOutlen   => s.rsOutlen.toNat
  | .decNerr    => 65536 * s.decNerrMeta.toNat + s.decNerrData.toNat
  | .bgRgb      => 65536 * s.bgRgb.b.toNat + 256 * s.bgRgb.g.toNat + s.bgRgb.r.toNat
  | .cfg0       => 0x04084004
  | .cfg1       => 0x0002011D
  | .cfg2       => 0x0000FE00
  | .maxPix     => 2073600

theorem readReg_toNat (s : State) (r : Reg) : (readReg Config.params s r).toNat = regNumber s r := by
  cases r with
  | ctrl => exact (toNat_setWidth_word _ (by decide)).trans (BitVec.toNat_ofBool _)
  | frameW | frameH | blockW | blockH | gridCols | gridRows | dataNsym | qbyte | dqByte | rsNsym =>
    exact toNat_setWidth_word _ (by decide)
  | travXy | decNerr => exact (toNat_append_eq_add _ _).trans (by rw [regNumber]; omega)
  | qrgb | dqRgb | bgRgb => exact packRgb_toNat _
  | _ => rfl

/-- No register reads the events to come. -/
theorem readReg_schedule (P : Params) (s : State) (es : List Event) (r : Reg) :
    readReg P { s with schedule := es } r = readReg P s r := by
  cases r <;> rfl

/-! ### Register accesses -/

/-- The map's offsets are the aligned ones below 0x090, each listed once (10_state R31). -/
theorem regAt_of_mem {off : Nat} {r : Reg} (h : (off, r) ∈ regMap) :
    regAt off = some r ∧ off < 0x090 ∧ off % 4 = 0 := by
  have hmap : ∀ x ∈ regMap, regAt x.1 = some x.2 ∧ x.1 < 0x090 ∧ x.1 % 4 = 0 := by decide
  exact hmap _ h

theorem regAt_reserved {off : Nat} (h : 0x090 ≤ off) : regAt off = none := by
  have hmap : ∀ x ∈ regMap, x.1 < 0x090 := by decide
  rw [regAt, Option.map_eq_none_iff, List.find?_eq_none]
  intro x hx
  have := hmap x hx
  simp only [beq_iff_eq]
  omega

theorem target_reg {off : Nat} (h : off < 0x1000) (h4 : off % 4 = 0) :
    target Config.params (BitVec.ofNat 32 off) .w4 = some (.reg off) :=
  (target_eq_reg _ _ _ _).2 ⟨by rw [BitVec.toNat_ofNat]; omega, h, rfl, h4⟩

section
variable (s : State) (es : List Event) (v : Word) {off : Nat} {r : Reg}

/-- A read of a register of the map (20_memory R91). -/
theorem step_read_reg (h : (off, r) ∈ regMap) :
    step { s with schedule := .access (.read (BitVec.ofNat 32 off) .w4) :: es } =
      .next { s with schedule := es, rdata := readReg Config.params s r } := by
  obtain ⟨hat, hlt, h4⟩ := regAt_of_mem h
  simp only [step, hostAccess, hostRead, target_reg (show off < 0x1000 by omega) h4, hat, readReg_schedule]

/-- A read of a reserved offset (20_memory R91). -/
theorem step_read_reserved (h : 0x090 ≤ off) (hlt : off < 0x1000) (h4 : off % 4 = 0) :
    step { s with schedule := .access (.read (BitVec.ofNat 32 off) .w4) :: es } =
      .next { s with schedule := es, rdata := 0 } := by
  simp only [step, hostAccess, hostRead, target_reg hlt h4, regAt_reserved h]

/-- A write to a register of the map is that register's write (10_state R34). -/
theorem step_write_reg (h : (off, r) ∈ regMap) :
    step { s with schedule := .access (.write (BitVec.ofNat 32 off) .w4 v) :: es } =
      .next (writeReg r v { s with schedule := es }) := by
  obtain ⟨hat, hlt, h4⟩ := regAt_of_mem h
  simp only [step, hostAccess, hostWrite, target_reg (show off < 0x1000 by omega) h4, hat]

/-- A write to a reserved offset is ignored (10_state R34). -/
theorem step_write_reserved (h : 0x090 ≤ off) (hlt : off < 0x1000) (h4 : off % 4 = 0) :
    step { s with schedule := .access (.write (BitVec.ofNat 32 off) .w4 v) :: es } = .next { s with schedule := es } := by
  simp only [step, hostAccess, hostWrite, target_reg hlt h4, regAt_reserved h]

/-- A RW register's write takes nothing from the events to come. -/
theorem writeOperand_schedule (r : Reg) :
    writeOperand r v { s with schedule := es } = { writeOperand r v s with schedule := es } := by
  unfold writeOperand
  split <;> rfl

/-- A RW register other than `CTRL` takes a write only while no command is pending (70_reset R350 b). -/
theorem writeReg_of_isOperand (hr : r.isOperand = true) :
    writeReg r v s = if s.busy then { s with ovr := true } else writeOperand r v s := by
  unfold writeReg
  split
  · cases hr
  · cases hr
  · cases hr
  · rw [if_pos hr]

/-- A read-only or computed register ignores a write, busy or not (10_state R34). -/
theorem writeReg_of_readOnly (hr : r.isOperand = false) (hctrl : r ≠ .ctrl) (hstatus : r ≠ .status) (hcmd : r ≠ .cmd) :
    writeReg r v s = s := by
  unfold writeReg
  split
  · exact absurd rfl hctrl
  · exact absurd rfl hstatus
  · exact absurd rfl hcmd
  · simp [hr]

theorem step_write_ctrl : step { s with schedule := .access (.write 0x00000004#32 .w4 v) :: es } =
    .next { s with schedule := es, irqEn := v.getLsbD 0 } :=
  step_write_reg s es v (off := 0x004) (r := .ctrl) (by decide)

theorem step_write_status : step { s with schedule := .access (.write 0x00000008#32 .w4 v) :: es } =
    .next { s.clearStatus v with schedule := es } :=
  step_write_reg s es v (off := 0x008) (r := .status) (by decide)

theorem step_write_cmd_of_idle (hb : s.busy = false) :
    step { s with schedule := .access (.write 0x0000000C#32 .w4 v) :: es } =
      .next { s.accept v with schedule := es } :=
  (step_write_reg s es v (off := 0x00C) (r := .cmd) (by decide)).trans
    (congrArg Host.Outcome.next (if_neg (ne_true_of_eq_false hb)))

theorem step_write_cmd_of_busy (hb : s.busy = true) :
    step { s with schedule := .access (.write 0x0000000C#32 .w4 v) :: es } =
      .next { s with schedule := es, ovr := true } :=
  (step_write_reg s es v (off := 0x00C) (r := .cmd) (by decide)).trans (congrArg Host.Outcome.next (if_pos hb))

theorem step_write_operand_of_idle (hb : s.busy = false) (h : (off, r) ∈ regMap) (hr : r.isOperand = true) :
    step { s with schedule := .access (.write (BitVec.ofNat 32 off) .w4 v) :: es } =
      .next { writeOperand r v s with schedule := es } := by
  rw [step_write_reg s es v h, writeReg_of_isOperand _ v hr, writeOperand_schedule]
  exact congrArg Host.Outcome.next (if_neg (ne_true_of_eq_false hb))

theorem step_write_operand_of_busy (hb : s.busy = true) (h : (off, r) ∈ regMap) (hr : r.isOperand = true) :
    step { s with schedule := .access (.write (BitVec.ofNat 32 off) .w4 v) :: es } =
      .next { s with schedule := es, ovr := true } := by
  rw [step_write_reg s es v h, writeReg_of_isOperand _ v hr]
  exact congrArg Host.Outcome.next (if_pos hb)

theorem step_write_readOnly (h : (off, r) ∈ regMap) (hr : r.isOperand = false) (hctrl : r ≠ .ctrl)
    (hstatus : r ≠ .status) (hcmd : r ≠ .cmd) :
    step { s with schedule := .access (.write (BitVec.ofNat 32 off) .w4 v) :: es } = .next { s with schedule := es } := by
  rw [step_write_reg s es v h, writeReg_of_readOnly _ v hr hctrl hstatus hcmd]

end

end Sys2Proof.Machine
end

section
/-! The statements about the host port's registers, the busy hazard and the reset (10_state R31, R33, R34, R44, R61;
20_memory R91; 70_reset R340, R350). -/

namespace Sys2Proof.Machine

/-! ### Register reads -/

/-- Settles O45. The statement's table is the register map with `regNumber` for each register. -/
theorem registerReadReturnsValue : Obligations.RegisterReadReturnsValue := by
  refine ⟨fun s es off hlt h4 => ⟨fun r hr => step_read_reg s es hr, fun h => step_read_reserved s es h hlt h4⟩,
    fun s es x hx => ?_⟩
  change x ∈ regMap.map (fun row => (row.1, regNumber s row.2)) at hx
  obtain ⟨⟨off, r⟩, hr, rfl⟩ := List.mem_map.1 hx
  rw [step_read_reg s es hr, ← readReg_toNat, BitVec.ofNat_toNat, BitVec.setWidth_eq]

/-- Settles O48: the word is its fields side by side, and a write is `clearStatus`, busy or not. -/
theorem statusRegisterFields : Obligations.StatusRegisterFields := by
  refine ⟨statusWord_toNat, fun s es v => ⟨_, step_write_status s es v, rfl, rfl, rfl, rfl, rfl, ?_, ?_⟩⟩
  · exact fun h => ⟨if_pos h, if_pos h⟩
  · exact fun h => ⟨if_neg (ne_true_of_eq_false h), if_neg (ne_true_of_eq_false h)⟩

/-- Settles O49: each half is a coordinate reduced modulo 2^16. -/
theorem rectRegistersGiveBounds : Obligations.RectRegistersGiveBounds := by
  intro s x y bw bh
  constructor
  · simp only [readReg, State.rectXy0, toNat_append_eq_add, ← Int.natCast_mul, coord_natCast_toNat]
    rfl
  · simp only [readReg, State.rectXy1, toNat_append_eq_add, coord_upper_toNat]
    rfl

/-! ### Register writes -/

/-- Settles O47: `CMD`'s write accepts while idle and is refused while busy. -/
theorem commandAcceptance : Obligations.CommandAcceptance := by
  refine fun s es w => ⟨fun h => ?_, fun h => ?_⟩
  · exact step_write_cmd_of_idle s es w (not_busy_of_pending h)
  · exact step_write_cmd_of_busy s es w (Option.isSome_iff_ne_none.2 h)

/-- The defined bits of each RW register (10_state R34, R40). -/
def writeMask : Reg → Word
  | .ctrl => 0x00000001#32
  | .frameW | .frameH | .blockW | .blockH => 0x0000FFFF#32
  | .qbyte | .rsNsym => 0x000000FF#32
  | .dqRgb | .bgRgb => 0x00FFFFFF#32
  | _ => 0xFFFFFFFF#32

/-- A RW register reads back the defined bits of what was written (10_state R34). -/
theorem readReg_writeOperand_self (P : Params) (s : State) (v : Word) {r : Reg} (hr : r.isOperand = true) :
    readReg P (writeOperand r v s) r = v &&& writeMask r := by
  cases r with
  | frameW | frameH | blockW | blockH => exact setWidth_setWidth_eq_and v (k := 16) (by decide)
  | qbyte | rsNsym => exact setWidth_setWidth_eq_and v (k := 8) (by decide)
  | dqRgb | bgRgb => exact packRgb_unpackRgb v
  | streamLen | payloadLen | rsSrc | rsDst | rsLen => exact (BitVec.and_allOnes (x := v)).symm
  | _ => cases hr

/-- A write to a RW register shows in no other register, but for the rectangle registers that `BLOCK_W` and `BLOCK_H` move
(10_state R44). -/
theorem readReg_writeOperand_of_ne (P : Params) (s : State) (v : Word) {r r' : Reg} (hne : r' ≠ r)
    (hrect : ¬ (r' ∈ [Reg.rectXy0, .rectXy1] ∧ r ∈ [Reg.blockW, .blockH])) :
    readReg P (writeOperand r v s) r' = readReg P s r' := by
  cases r with
  | blockW | blockH =>
    cases r' with
    | rectXy0 | rectXy1 => simp at hrect
    | _ => first | rfl | exact absurd rfl hne
  | frameW | frameH | streamLen | payloadLen | qbyte | dqRgb | rsSrc | rsDst | rsLen | rsNsym | bgRgb =>
    cases r' <;> first | rfl | exact absurd rfl hne
  | _ => rfl

/-- `CTRL` reads back its one defined bit (10_state R31, R34). -/
theorem readReg_ctrl_of_irqEn (P : Params) (s : State) (v : Word) :
    readReg P { s with irqEn := v.getLsbD 0 } .ctrl = v &&& writeMask .ctrl := by
  simp only [readReg, ← BitVec.setWidth_one]
  exact setWidth_setWidth_eq_and v (k := 1) (by decide)

theorem readReg_irqEn_of_ne (P : Params) (s : State) (b : Bool) {r : Reg} (hne : r ≠ .ctrl) :
    readReg P { s with irqEn := b } r = readReg P s r := by
  cases r with
  | ctrl => exact absurd rfl hne
  | _ => rfl

theorem writeOperand_pending (s : State) (v : Word) (r : Reg) : (writeOperand r v s).pending = s.pending := by
  rw [writeOperand_eq]

theorem writeOperand_loadByte (s : State) (v : Word) (r : Reg) (sp : Space) (a : Nat) :
    (writeOperand r v s).loadByte sp a = s.loadByte sp a := by
  rw [writeOperand_eq]
  cases sp <;> rfl

/-- A write to a RW register while idle, as the host sees it: the register takes its defined bits, no other register, no
buffer byte and no pending command changes (10_state R34). -/
theorem step_write_rw_reads (s : State) (es : List Event) (v : Word) (hb : s.busy = false) {off : Nat} {r : Reg}
    (h : (off, r) ∈ regMap) (hr : r.isOperand = true ∨ r = .ctrl) :
    ∃ t, step { s with schedule := .access (.write (BitVec.ofNat 32 off) .w4 v) :: es } = .next t ∧
      readReg Config.params t r = v &&& writeMask r ∧
      (∀ r', r' ≠ r → ¬ (r' ∈ [Reg.rectXy0, .rectXy1] ∧ r ∈ [Reg.blockW, .blockH]) →
        readReg Config.params t r' = readReg Config.params s r') ∧
      t.pending = s.pending ∧ (∀ sp a, t.loadByte sp a = s.loadByte sp a) := by
  obtain hr | rfl := hr
  · refine ⟨_, step_write_operand_of_idle s es v hb h hr, ?_, fun r' hne hrect => ?_, ?_, fun sp a => ?_⟩
    · rw [readReg_schedule, readReg_writeOperand_self _ s v hr]
    · rw [readReg_schedule, readReg_writeOperand_of_ne _ s v hne hrect]
    · exact writeOperand_pending s v r
    · rw [← writeOperand_loadByte s v r sp a]
      cases sp <;> rfl
  · refine ⟨_, step_write_reg s es v h, ?_, fun r' hne _ => ?_, rfl, fun sp a => by cases sp <;> rfl⟩
    · exact readReg_ctrl_of_irqEn _ _ v
    · exact (readReg_irqEn_of_ne _ { s with schedule := es } _ hne).trans (readReg_schedule _ s es r')

/-- Settles O46. The statement's table is `CTRL` and, in the register map's order, the operand registers, each with the state
that its write leaves. -/
theorem registerWriteRules : Obligations.RegisterWriteRules := by
  intro s es off v hb hlt h4 e
  refine ⟨?_, fun r h hr => ?_, fun r => step_write_readOnly s es v, fun h => step_write_reserved s es v h hlt h4, ?_, ?_⟩
  · rintro x hx rfl
    change x ∈ (0x004, { s with irqEn := v.getLsbD 0 }) ::
      (regMap.filter (fun row => row.2.isOperand)).map (fun row => (row.1, writeOperand row.2 v s)) at hx
    obtain rfl | hx := List.mem_cons.1 hx
    · exact step_write_ctrl s es v
    · obtain ⟨⟨off, r⟩, hrow, rfl⟩ := List.mem_map.1 hx
      obtain ⟨hmem, hr⟩ := List.mem_filter.1 hrow
      exact step_write_operand_of_idle s es v hb hmem hr
  · obtain ⟨t, hstep, hself, hrest⟩ := step_write_rw_reads s es v hb h hr
    refine ⟨t, hstep, hself.trans (congrArg (v &&& ·) ?_), hrest⟩
    cases r <;> rfl
  · rintro rfl
    exact step_write_status s es v
  · rintro rfl
    exact step_write_cmd_of_idle s es v hb

end Sys2Proof.Machine
end

section
/-! The busy hazard and the register values after a reset (70_reset R340, R341, R350). -/

namespace Sys2Proof.Machine

/-! ### Buffer accesses -/

theorem inWindow_iff (P : Params) (sp : Space) (a : Nat) (w : Width) :
    inWindow P sp a w = true ↔
      windowBase sp ≤ a ∧ a + widthBytes w ≤ windowBase sp + P.sizeOf sp ∧ (w = .w1 ∨ (w = .w4 ∧ a % 4 = 0)) := by
  cases w <;> simp [inWindow, and_assoc]

/-- A legal access of the address map that starts in a buffer's window lies in it (20_memory R90). -/
theorem inWindow_of_legalAccess {sp : Space} {off : Nat} {w : Width} (h : legalAccess (windowBase sp + off) w)
    (hoff : off < Config.params.sizeOf sp) : inWindow Config.params sp (windowBase sp + off) w = true := by
  obtain ⟨hreg, -⟩ | ⟨hw, hwindow⟩ := h
  · exact absurd hreg (by cases sp <;> simp only [windowBase] <;> omega)
  · refine (inWindow_iff _ _ _ _).2 ⟨Nat.le_add_right _ _, ?_, hw⟩
    cases sp <;> simp only [windowBase, Config.params, Params.sizeOf] at hwindow hoff ⊢ <;> omega

/-- No address reaches two windows (20_memory R90). -/
theorem window_unique {sp sp' : Space} {off : Nat} {w : Width} (hoff : off < Config.params.sizeOf sp)
    (h : inWindow Config.params sp' (windowBase sp + off) w = true) : sp' = sp := by
  obtain ⟨hlo, hhi, -⟩ := (inWindow_iff _ _ _ _).1 h
  have hpos : 0 < widthBytes w := by cases w <;> decide
  cases sp <;> cases sp' <;> simp only [windowBase, Config.params, Params.sizeOf] at hoff hlo hhi ⊢ <;> omega

/-- What a legal access at offset `off` of a buffer's window reaches (20_memory R90). -/
theorem target_buf {sp : Space} {off : Nat} {w : Width} (h : legalAccess (windowBase sp + off) w)
    (hoff : off < Config.params.sizeOf sp) :
    target Config.params (BitVec.ofNat 32 (windowBase sp + off)) w = some (.buf sp off) := by
  have hin := inWindow_of_legalAccess h hoff
  have hother : ∀ sp', sp' ≠ sp → ¬ inWindow Config.params sp' (windowBase sp + off) w = true :=
    fun sp' hne h' => hne (window_unique hoff h')
  have haddr : (BitVec.ofNat 32 (windowBase sp + off)).toNat = windowBase sp + off := by
    rw [BitVec.toNat_ofNat]
    cases sp <;> simp only [windowBase, Config.params, Params.sizeOf] at hoff ⊢ <;> omega
  have hreg : ¬ windowBase sp + off < 0x1000 := by cases sp <;> simp only [windowBase] <;> omega
  simp only [target, haddr, if_neg hreg]
  cases sp with
  | pbuf => rw [if_pos hin, Nat.add_sub_cancel_left]
  | ebuf => rw [if_neg (hother _ (by decide)), if_pos hin, Nat.add_sub_cancel_left]
  | fb =>
    rw [if_neg (hother _ (by decide)), if_neg (hother _ (by decide)), if_pos hin, Nat.add_sub_cancel_left]

section
variable (s : State) (es : List Event) (v : Word) {sp : Space} {off : Nat} {w : Width}

/-- A buffer write while busy is refused (70_reset R350 c). -/
theorem step_write_buf_of_busy (hb : s.busy = true) (h : legalAccess (windowBase sp + off) w)
    (hoff : off < Config.params.sizeOf sp) :
    step { s with schedule := .access (.write (BitVec.ofNat 32 (windowBase sp + off)) w v) :: es } =
      .next { s with schedule := es, ovr := true } := by
  simp only [step, hostAccess, hostWrite, target_buf h hoff]
  exact congrArg Host.Outcome.next (if_pos hb)

/-- A buffer read while busy answers free values of a fresh draw (70_reset R350 d; log 7). -/
theorem step_read_buf_of_busy (hb : s.busy = true) (h : legalAccess (windowBase sp + off) w)
    (hoff : off < Config.params.sizeOf sp) :
    step { s with schedule := .access (.read (BitVec.ofNat 32 (windowBase sp + off)) w) :: es } =
      .next { s with
        schedule := es
        rdata := wordOfBytes ((List.range (widthBytes w)).map (fun i => Config.freeByte s.draws sp (off + i)))
        draws := s.draws + 1 } := by
  simp only [step, hostAccess, hostRead, target_buf h hoff]
  exact congrArg Host.Outcome.next (if_pos hb)

end

/-- Settles O51: point by point, the host port's law for that access; the last point is `StatusOk`'s busy part. -/
theorem busyHazards : Obligations.BusyHazards := by
  intro s es v hb
  refine ⟨step_write_cmd_of_busy s es v hb, fun off r => step_write_operand_of_busy s es v hb,
    fun sp off w h hoff => ⟨step_write_buf_of_busy s es v hb h hoff, _, step_read_buf_of_busy s es hb h hoff⟩,
    fun off r => step_read_reg s es, step_write_ctrl s es v, step_write_status s es v,
    fun off r => step_write_readOnly s es v, fun off => step_write_reserved s es v, fun hstatus => ?_⟩
  obtain ⟨-, -, hpending⟩ := hstatus
  obtain ⟨hdone, herr, -⟩ := hpending hb
  exact ⟨hdone, herr⟩

/-! ### Reset values -/

/-- The reset state's registers read as 10_state R31 lists them. -/
theorem readReg_reset : ∀ x ∈ resetValues, readReg Config.params State.reset x.1 = x.2 := by decide

/-- Where every register stands at its reset value, every register reads it: none reads a buffer. -/
theorem State.RegsReset.readReg_eq {t : State} (h : t.RegsReset) (P : Params) (r : Reg) :
    readReg P t r = readReg P State.reset r := by
  rw [h]
  cases r <;> rfl

/-- Settles O53. Idle or busy, the reset input puts every register to its reset value. -/
theorem hardResetRestoresRegisters : Obligations.HardResetRestoresRegisters := by
  intro s es
  have hreset := hardReset_regsReset { s with schedule := es }
  refine ⟨_, rfl, fun x hx => (hreset.readReg_eq _ x.1).trans (readReg_reset x hx), ?_, ?_, ?_, ?_⟩
  · rw [hreset]; rfl
  · rw [hreset]; rfl
  · unfold hardReset
    split
    · exact applyStores_schedule _ _
    · rfl
  · unfold hardReset
    split
    · exact applyStores_rdata _ _
    · rfl

/-- Settles O55: the register file is a finite table, and no buffer lists a byte. -/
theorem resetStateRegisters : Obligations.ResetStateRegisters :=
  ⟨readReg_reset, rfl, rfl, rfl, fun sp a => by cases sp <;> rfl⟩

end Sys2Proof.Machine
end

section
/-! The host port's address map and its buffer windows (20_memory R90 to R94). -/

namespace Sys2Proof.Machine

/-! ### Legal accesses -/

/-- An access inside a buffer's window with a listed width is legal (20_memory R90, R92). -/
theorem legalAccess_buf {sp : Space} {off : Nat} {w : Width} (hin : off + widthBytes w ≤ Config.params.sizeOf sp)
    (hw : w = .w1 ∨ (w = .w4 ∧ off % 4 = 0)) : legalAccess (windowBase sp + off) w := by
  refine .inr ⟨hw.imp_right (And.imp_right fun h4 => ?_), ?_⟩
  · cases sp <;> simp only [windowBase] <;> omega
  · cases sp <;> simp only [windowBase, Config.params, Params.sizeOf] at hin ⊢ <;> omega

/-- A legal access is one of the register window, or lies at some offset of a buffer's window (20_memory R90). -/
theorem legalAccess_cases {a : Nat} {w : Width} (h : legalAccess a w) :
    (a < 0x1000 ∧ w = .w4 ∧ a % 4 = 0) ∨ ∃ sp off, a = windowBase sp + off ∧ off < Config.params.sizeOf sp := by
  have hpos : 0 < widthBytes w := by cases w <;> decide
  obtain hreg | ⟨-, ⟨hlo, hhi⟩ | ⟨hlo, hhi⟩ | ⟨hlo, hhi⟩⟩ := h
  · exact .inl hreg
  · exact .inr ⟨.pbuf, a - 0x10000000, (Nat.add_sub_cancel' hlo).symm, show _ < 2073600 by omega⟩
  · exact .inr ⟨.ebuf, a - 0x20000000, (Nat.add_sub_cancel' hlo).symm, show _ < 2073600 by omega⟩
  · exact .inr ⟨.fb, a - 0x30000000, (Nat.add_sub_cancel' hlo).symm, show _ < 6220800 by omega⟩

/-- The model's address decoder rejects exactly the accesses outside the address map (20_memory R90, R93). -/
theorem target_eq_none_iff (addr : Word) (w : Width) :
    target Config.params addr w = none ↔ ¬ legalAccess addr.toNat w := by
  constructor
  · intro hnone hlegal
    obtain ⟨hlt, hw, h4⟩ | ⟨sp, off, ha, hoff⟩ := legalAccess_cases hlegal
    · exact absurd (hnone.symm.trans ((target_eq_reg _ _ _ _).2 ⟨rfl, hlt, hw, h4⟩)) (by simp)
    · rw [ha] at hlegal
      have haddr : addr = BitVec.ofNat 32 (windowBase sp + off) := by
        rw [← ha, BitVec.ofNat_toNat, BitVec.setWidth_eq]
      exact absurd (hnone.symm.trans (haddr ▸ target_buf hlegal hoff)) (by simp)
  · intro hillegal
    match htarget : target Config.params addr w with
    | none => rfl
    | some (.reg off) =>
      obtain ⟨rfl, hreg⟩ := (target_eq_reg _ _ _ _).1 htarget
      exact absurd (.inl hreg) hillegal
    | some (.buf sp off) =>
      obtain ⟨ha, hin, hw2, h4⟩ := target_eq_buf _ _ _ _ _ htarget
      refine absurd (ha ▸ legalAccess_buf hin ?_) hillegal
      cases w with
      | w1 => exact .inl rfl
      | w2 => exact absurd rfl hw2
      | w4 =>
        have hbase : windowBase sp % 4 = 0 := by cases sp <;> rfl
        have := h4 rfl
        exact .inr ⟨rfl, by omega⟩

/-! ### The `BUSERR` bit -/

section
variable (P : Params) (s : State) (v : Word) {addr : Word} {w : Width}

/-- A read that reaches something leaves `BUSERR` alone (20_memory R93). -/
theorem hostRead_busErr (h : target P addr w ≠ none) : (hostRead P addr w s).busErr = s.busErr := by
  unfold hostRead
  split
  · exact absurd ‹_› h
  · split <;> rfl
  · split <;> rfl

/-- No register write sets `BUSERR`; a write to `STATUS` can clear it (10_state R33). -/
theorem writeReg_busErr (r : Reg) (h : (writeReg r v s).busErr = true) : s.busErr = true := by
  unfold writeReg at h
  split at h
  · exact h
  · rw [clearStatus_busErr, Bool.and_eq_true] at h
    exact h.1
  · split at h <;> exact h
  · split at h
    · split at h
      · exact h
      · rw [writeOperand_eq] at h
        exact h
    · exact h

/-- A write that reaches something does not set `BUSERR` (20_memory R93). -/
theorem hostWrite_busErr (h : target P addr w ≠ none) (hbus : (hostWrite P addr w v s).busErr = true) :
    s.busErr = true := by
  unfold hostWrite at hbus
  split at hbus
  · exact absurd ‹_› h
  · split at hbus
    · exact writeReg_busErr s v _ hbus
    · exact hbus
  · split at hbus
    · exact hbus
    · rwa [applyStore_busErr] at hbus

end

/-- Settles O44: the decoder answers none exactly for the illegal accesses, and only that answer sets `BUSERR`. -/
theorem illegalAccessSetsBusErr : Obligations.IllegalAccessSetsBusErr := by
  intro s es addr v w
  rw [← target_eq_none_iff]
  refine ⟨fun hnone => ?_, fun hsome => ?_⟩
  · simp only [step, hostAccess, hostRead, hostWrite, hnone, and_self]
  · have htarget : target Config.params addr w ≠ none := fun h => (target_eq_none_iff addr w).1 h hsome
    exact ⟨_, _, rfl, hostRead_busErr _ _ htarget, rfl, hostWrite_busErr _ _ v htarget⟩

/-! ### Bytes and words -/

theorem wordOfBytes_one (b : Byte) : wordOfBytes [b] = b.setWidth 32 := by
  apply BitVec.eq_of_toNat_eq
  simp [wordOfBytes, unle]

/-- Four bytes, least significant first, are the word of their concatenation (20_memory R92). -/
theorem wordOfBytes_four (b0 b1 b2 b3 : Byte) : wordOfBytes [b0, b1, b2, b3] = b3 ++ b2 ++ b1 ++ b0 := by
  apply BitVec.eq_of_toNat_eq
  simp only [wordOfBytes, unle, BitVec.toNat_ofNat, toNat_append_eq_add]
  omega

/-- Byte `i` of a number's little-endian form (00_scope R12). -/
theorem le32_getD (n : Nat) {i : Nat} (h : i < 4) : (le32 n).getD i 0 = BitVec.ofNat 8 (n / 2 ^ (8 * i)) := by
  match i, h with
  | 0, _ => exact congrArg (BitVec.ofNat 8) (Nat.div_one n).symm
  | 1, _ => rfl
  | 2, _ => rfl
  | 3, _ => rfl

/-- Byte `i` of a value written with a width (20_memory R92). -/
theorem valueBytes_getD (v : Word) {w : Width} {i : Nat} (h : i < widthBytes w) :
    (valueBytes v w).getD i 0 = v.extractLsb' (8 * i) 8 := by
  have h4 : i < 4 := h.trans_le (by cases w <;> decide)
  calc (valueBytes v w).getD i 0
      = (le32 v.toNat).getD i 0 := by simp [valueBytes, List.getD_eq_getElem?_getD, h]
    _ = BitVec.ofNat 8 (v.toNat / 2 ^ (8 * i)) := le32_getD _ h4
    _ = v.extractLsb' (8 * i) 8 := by rw [← Nat.shiftRight_eq_div_pow]; rfl

/-! ### Buffer accesses while idle -/

/-- A store changes nothing but buffers. -/
theorem applyStore_eq (s : State) (st : Store) : s.applyStore st = { s with
    pbuf := (s.applyStore st).pbuf, ebuf := (s.applyStore st).ebuf, fb := (s.applyStore st).fb } := by
  obtain ⟨sp, off, bs⟩ := st
  cases sp <;> rfl

/-- The bytes of a state do not depend on the events to come. -/
theorem loadByte_schedule (s : State) (es : List Event) (sp : Space) (a : Nat) :
    ({ s with schedule := es } : State).loadByte sp a = s.loadByte sp a :=
  rfl

section
variable (s : State) (es : List Event) (v : Word) {sp : Space} {off : Nat} {w : Width}

/-- A buffer read while no command is pending (20_memory R92). -/
theorem step_read_buf_of_idle (hb : s.busy = false) (h : legalAccess (windowBase sp + off) w)
    (hoff : off < Config.params.sizeOf sp) :
    step { s with schedule := .access (.read (BitVec.ofNat 32 (windowBase sp + off)) w) :: es } =
      .next { s with schedule := es, rdata := wordOfBytes (s.loadBytes sp off (widthBytes w)) } := by
  simp only [step, hostAccess, hostRead, target_buf h hoff]
  rw [if_neg (show ¬ ({ s with schedule := es } : State).busy = true from ne_true_of_eq_false hb)]
  simp only [State.loadBytes, loadByte_schedule]

/-- A buffer write while no command is pending moves the value's bytes and nothing else (20_memory R92). -/
theorem step_write_buf_of_idle (hb : s.busy = false) (h : legalAccess (windowBase sp + off) w)
    (hoff : off < Config.params.sizeOf sp) :
    ∃ t, step { s with schedule := .access (.write (BitVec.ofNat 32 (windowBase sp + off)) w v) :: es } = .next t ∧
      t = { s with schedule := es, pbuf := t.pbuf, ebuf := t.ebuf, fb := t.fb } ∧
      ∀ sp' a, t.loadByte sp' a =
        if sp' = sp ∧ off ≤ a ∧ a < off + widthBytes w then v.extractLsb' (8 * (a - off)) 8
        else s.loadByte sp' a := by
  refine ⟨({ s with schedule := es } : State).applyStore ⟨sp, off, valueBytes v w⟩, ?_, applyStore_eq _ _, ?_⟩
  · simp only [step, hostAccess, hostWrite, target_buf h hoff]
    exact congrArg Host.Outcome.next (if_neg (ne_true_of_eq_false hb))
  · intro sp' a
    rw [State.loadByte_applyStore, loadByte_schedule]
    simp only [Store.covers, valueBytes_length, decide_eq_true_eq, eq_comm (a := sp)]
    split
    · exact valueBytes_getD v (by omega)
    · rfl

end

/-- Settles O50: the idle read and write laws of the windows, at width 1 and at an aligned width 4. -/
theorem bufferAccessesAreLittleEndian : Obligations.BufferAccessesAreLittleEndian := by
  intro s es sp off v hb
  refine ⟨fun hoff => ?_, fun h4 hin => ?_⟩
  · have hlegal : legalAccess (windowBase sp + off) .w1 := legalAccess_buf hoff (.inl rfl)
    refine ⟨?_, ?_⟩
    · rw [step_read_buf_of_idle s es hb hlegal hoff]
      simp only [widthBytes, State.loadBytes, List.range_one, List.map_cons, List.map_nil, wordOfBytes_one,
        Nat.add_zero]
    · obtain ⟨t, hstep, hframe, hbytes⟩ := step_write_buf_of_idle s es v hb hlegal hoff
      refine ⟨t, hstep, hframe, fun sp' a => ?_⟩
      have hrange : (off ≤ a ∧ a < off + widthBytes .w1) ↔ a = off := by simp only [widthBytes]; omega
      rw [hbytes]
      refine ite_congr (congrArg _ (propext hrange)) (fun ha => ?_) fun _ => rfl
      rw [ha.2, Nat.sub_self, Nat.mul_zero, BitVec.setWidth_eq_extractLsb' (by decide)]
  · have hlegal : legalAccess (windowBase sp + off) .w4 := legalAccess_buf hin (.inr ⟨rfl, h4⟩)
    have hoff : off < Config.params.sizeOf sp := by omega
    refine ⟨?_, step_write_buf_of_idle s es v hb hlegal hoff⟩
    rw [step_read_buf_of_idle s es hb hlegal hoff]
    exact congrArg (fun x => Host.Outcome.next { s with schedule := es, rdata := x }) (wordOfBytes_four _ _ _ _)

end Sys2Proof.Machine
end

section
/-! The buffers after a hardware reset (70_reset R340, R341). -/

namespace Sys2Proof.Machine

/-! ### The write set and the events to come -/

/-- The fill loop's stores do not depend on the events to come (44_frame_pipelines R261). -/
theorem renderFrom_schedule (s : State) (es : List Event) (cols i : Nat) (bs : List Byte) :
    renderFrom { s with schedule := es } cols i bs = renderFrom s cols i bs := by
  induction bs generalizing i with
  | nil => rfl
  | cons b bs ih => exact congrArg (_ ++ ·) (ih (i + 1))

/-- What a command would store does not depend on the events to come: its checks and its bytes read registers and buffers
only (30_encoding R123). -/
theorem commandResult_stores_schedule (P : Params) (s : State) (es : List Event) (i : Instr) :
    (commandResult P i { s with schedule := es }).stores = (commandResult P i s).stores := by
  have hgrid : gridCompute P { s with schedule := es } = gridCompute P s := rfl
  have hrect : currentRect P { s with schedule := es } = currentRect P s := rfl
  have hload : ∀ sp off n, ({ s with schedule := es } : State).loadBytes sp off n = s.loadBytes sp off n :=
    fun _ _ _ => rfl
  cases i with
  | nop | travReset | quant | dequantPix | softReset => rfl
  | gridSetup =>
    simp only [commandResult, cmdGridSetup, hgrid]
    cases gridCompute P s <;> rfl
  | travNext =>
    simp only [commandResult, cmdTravNext, apply_ite CmdResult.stores]
    rfl
  | fbClear =>
    simp only [commandResult, cmdFbClear, apply_ite CmdResult.stores]
    rfl
  | fillBlock =>
    simp only [commandResult, cmdFillBlock, hrect]
    cases currentRect P s <;> rfl
  | dequantBlock =>
    simp only [commandResult, cmdDequantBlock, hrect]
    cases currentRect P s <;> rfl
  | rsEnc =>
    simp only [commandResult, cmdRsEnc, hload, apply_ite CmdResult.stores]
    rfl
  | rsDec =>
    simp only [commandResult, cmdRsDec, hload, apply_ite CmdResult.stores]
    cases rsDecode P (s.loadBytes .ebuf s.rsSrc.toNat s.rsLen.toNat) s.rsNsym.toNat <;> rfl
  | envBuild =>
    simp only [commandResult, cmdEnvBuild, hgrid, hload]
    cases gridCompute P s with
    | error e => rfl
    | ok g =>
      simp only [apply_ite CmdResult.stores]
      cases buildEnvelope P (s.loadBytes .pbuf 0 s.payloadLen.toNat) g.n with
      | error e => rfl
      | ok env =>
        simp only [apply_ite CmdResult.stores]
        rfl
  | envParse =>
    simp only [commandResult, cmdEnvParse, hgrid, hload]
    cases gridCompute P s with
    | error e => rfl
    | ok g =>
      simp only [apply_ite CmdResult.stores]
      cases parseEnvelope P (s.loadBytes .ebuf 0 g.n) with
      | error e => rfl
      | ok q =>
        simp only [apply_ite CmdResult.stores]
        rfl
  | frameEncode =>
    have hrender : ∀ cols env, renderStores { s with schedule := es } cols env = renderStores s cols env :=
      fun cols env => congrArg (blankStores s ++ ·) (renderFrom_schedule s es cols 0 env)
    simp only [commandResult, cmdFrameEncode, hgrid, hload, hrender]
    cases gridCompute P s with
    | error e => rfl
    | ok g =>
      simp only [apply_ite CmdResult.stores]
      cases buildEnvelope P (s.loadBytes .pbuf 0 (min s.streamLen.toNat g.cap.toNat)) g.n <;> rfl
  | frameDecode =>
    have hscan : ∀ cols n, scan P { s with schedule := es } cols n = scan P s cols n := fun _ _ => rfl
    simp only [commandResult, cmdFrameDecode, hgrid, hscan]
    cases gridCompute P s with
    | error e => rfl
    | ok g =>
      simp only [apply_ite CmdResult.stores]
      cases parseEnvelope P (scan P s g.cols g.n) <;> rfl

theorem pendingStores_schedule (P : Params) (s : State) (es : List Event) :
    pendingStores P { s with schedule := es } = pendingStores P s := by
  simp only [pendingStores, commandResult_stores_schedule]

/-! ### Redrawn bytes -/

theorem Store.covers_redrawn (draw : Nat) (st : Store) (sp : Space) (a : Nat) :
    (st.redrawn draw).covers sp a = st.covers sp a := by
  simp [Store.covers, Store.redrawn]

/-- Each byte of a redrawn store is the free value of its own place (70_reset R341; log 6). -/
theorem Store.redrawn_getD {draw : Nat} {st : Store} {sp : Space} {a : Nat} (h : st.covers sp a = true) :
    (st.redrawn draw).bytes.getD (a - st.off) 0 = Config.freeByte draw sp a := by
  obtain ⟨rfl, hlo, hhi⟩ := of_decide_eq_true h
  have hlt : a - st.off < st.bytes.length := by omega
  simp [Store.redrawn, List.getD_eq_getElem?_getD, hlt, Nat.add_sub_cancel' hlo]

/-- Redrawn stores give every byte they cover a free value and keep the rest (70_reset R341). -/
theorem State.loadByte_applyStores_redrawn (s : State) (sts : List Store) (draw : Nat) (sp : Space) (a : Nat) :
    (s.applyStores (sts.map (Store.redrawn draw))).loadByte sp a =
      if sts.any (fun st => st.covers sp a) then Config.freeByte draw sp a else s.loadByte sp a := by
  split
  · rename_i hcov
    obtain ⟨st, hst, hc⟩ := List.any_eq_true.1 hcov
    refine State.loadByte_applyStores_of_covered _ _ _ _ _ (fun x hx hxc => ?_)
      (.inl ⟨_, List.mem_map_of_mem hst, (Store.covers_redrawn draw st sp a).trans hc⟩)
    obtain ⟨y, -, rfl⟩ := List.mem_map.1 hx
    exact Store.redrawn_getD (y.covers_redrawn draw sp a ▸ hxc)
  · rename_i hcov
    refine State.loadByte_applyStores_of_not_covered _ _ _ _ fun x hx => ?_
    obtain ⟨y, hy, rfl⟩ := List.mem_map.1 hx
    rw [Store.covers_redrawn]
    exact Bool.eq_false_iff.2 fun hc => hcov (List.any_eq_true.2 ⟨y, hy, hc⟩)

/-! ### The reset input -/

section
variable (P : Params) (s : State)

/-- A reset while idle: every byte is a free value of a fresh draw (20_memory R81; log 5). -/
theorem hardReset_loadByte_of_idle (hb : s.busy = false) (sp : Space) (a : Nat) :
    (hardReset P s).loadByte sp a = Config.freeByte s.draws sp a := by
  unfold hardReset
  rw [if_neg (ne_true_of_eq_false hb)]
  cases sp <;> rfl

/-- A reset while busy redraws the write set and keeps every other byte (70_reset R341; log 6). -/
theorem hardReset_loadByte_of_busy (hb : s.busy = true) (sp : Space) (a : Nat) :
    (hardReset P s).loadByte sp a =
      if (pendingStores P s).any (fun st => st.covers sp a) then Config.freeByte s.draws sp a
      else s.loadByte sp a := by
  rw [← State.loadByte_applyStores_redrawn]
  unfold hardReset
  rw [if_pos hb]
  exact State.loadByte_congr sp a (by cases sp <;> rfl) rfl

end

/-- Settles O54: the reset's two cases, in the state whose first event the reset was. -/
theorem hardResetRedrawsBuffers : Obligations.HardResetRedrawsBuffers := by
  intro s es
  refine ⟨_, rfl, fun hb => hardReset_loadByte_of_idle _ { s with schedule := es } hb, fun hb sp a => ?_⟩
  rw [hardReset_loadByte_of_busy _ { s with schedule := es } hb, pendingStores_schedule, loadByte_schedule]

end Sys2Proof.Machine
end

section
/-! Dispatch of a command word, said once as what `decode` answers (30_encoding R120 to R122), and the statements about it. -/

namespace Sys2Proof.Machine

/-! ### The fields of a command word -/

/-- A word is a byte's zero extension exactly when its `OP` field is the byte and its `RSV` field is 0 (30_encoding R120). -/
theorem eq_setWidth_iff_fields (w : Word) (b : Byte) :
    w = b.setWidth 32 ↔ w.extractLsb' 0 8 = b ∧ w.extractLsb' 8 24 = 0 := by
  have hw := w.isLt
  have hb := b.isLt
  simp only [← BitVec.toNat_inj, BitVec.toNat_setWidth, BitVec.extractLsb'_toNat, Nat.shiftRight_eq_div_pow,
    BitVec.ofNat_eq_ofNat, BitVec.toNat_ofNat]
  omega

/-! ### The opcode map -/

/-- Each row of the opcode map holds its command's opcode (30_encoding R121). -/
theorem opcodeMap_row_opcode : ∀ row ∈ opcodeMap, row.1 = row.2.opcode := by decide

theorem decodeOpcode_opcode (i : Instr) : decodeOpcode i.opcode = some i := by cases i <;> rfl

theorem decodeOpcode_eq_some_iff (op : Byte) (i : Instr) : decodeOpcode op = some i ↔ op = i.opcode := by
  refine ⟨fun h => ?_, fun h => h ▸ decodeOpcode_opcode i⟩
  obtain ⟨row, hfind, rfl⟩ := Option.map_eq_some_iff.1 h
  have hop : row.1 = op := by simpa using List.find?_some hfind
  exact hop ▸ opcodeMap_row_opcode row (List.mem_of_find?_eq_some hfind)

/-- The legal opcodes are those of the opcode map's rows. -/
theorem legalOpcodes_eq_map : legalOpcodes = opcodeMap.map Prod.fst := rfl

theorem decodeOpcode_eq_none_iff (op : Byte) : decodeOpcode op = none ↔ op ∉ legalOpcodes := by
  simp only [decodeOpcode, legalOpcodes_eq_map, Option.map_eq_none_iff, List.find?_eq_none, List.mem_map, beq_iff_eq,
    not_exists, not_and]

theorem mem_legalOpcodes_iff (op : Byte) : op ∈ legalOpcodes ↔ ∃ i : Instr, op = i.opcode := by
  simp only [← decodeOpcode_eq_some_iff, ← Option.isSome_iff_exists, ← Option.ne_none_iff_isSome, ne_eq,
    decodeOpcode_eq_none_iff, not_not]

/-! ### What `decode` answers -/

theorem decode_eq_ok_iff (w : Word) (i : Instr) :
    decode w = .ok i ↔ w.extractLsb' 0 8 = i.opcode ∧ w.extractLsb' 8 24 = 0 := by
  rw [← decodeOpcode_eq_some_iff]
  unfold decode
  split
  · simp [*]
  · split <;> simp_all

/-- The opcode check comes first: it rejects whatever the `RSV` field holds (30_encoding R122). -/
theorem decode_of_unknownOpcode {w : Word} (hop : w.extractLsb' 0 8 ∉ legalOpcodes) : decode w = .error .opcode := by
  simp only [decode, (decodeOpcode_eq_none_iff _).2 hop]

theorem decode_of_reservedBits {w : Word} (hop : w.extractLsb' 0 8 ∈ legalOpcodes) (hrsv : w.extractLsb' 8 24 ≠ 0) :
    decode w = .error .reservedBits := by
  obtain ⟨i, hi⟩ := (mem_legalOpcodes_iff _).1 hop
  simp only [decode, (decodeOpcode_eq_some_iff _ _).2 hi, if_neg hrsv]

/-- Settles O1: both sides say that the `OP` field is the command's opcode and the `RSV` field is 0. -/
theorem decodeAgreesWithEncode : Obligations.DecodeAgreesWithEncode :=
  fun w i => (decode_eq_ok_iff w i).trans (eq_setWidth_iff_fields w i.opcode).symm

theorem decode_encode (i : Instr) : decode (encode i) = .ok i := (decodeAgreesWithEncode _ i).2 rfl

/-- Settles O2: seven words are encodings, and of the three others the fields show why they are rejected. -/
theorem opcodeMapWordsDecode : Obligations.OpcodeMapWordsDecode :=
  ⟨decode_encode .nop, decode_encode .gridSetup, decode_encode .fillBlock, decode_encode .rsDec, decode_encode .envBuild,
    decode_encode .frameDecode, decode_encode .softReset, decode_of_unknownOpcode (by decide),
    decode_of_reservedBits (by decide) (by decide), decode_of_unknownOpcode (by decide)⟩

/-! ### Dispatch -/

/-- The engine has the turn when it is scheduled next and when the schedule is used up (log 1). -/
theorem step_eq_engineTurn {s : State} (h : s.schedule = [] ∨ s.schedule.head? = some .engine) :
    step s = engineTurn { s with schedule := s.schedule.tail } := by
  obtain hnil | hhead := h
  · have hs : { s with schedule := s.schedule.tail } = s := by rw [hnil, List.tail_nil, ← hnil]
    rw [hs, step_of_schedule_nil hnil]
  · obtain ⟨es, hes⟩ := List.head?_eq_some_iff.1 hhead
    rw [step_of_schedule_engine hes, hes, List.tail_cons]

theorem engineTurn_of_rejected {s : State} {w : Word} {e : DecodeError} (h : s.pending = some w)
    (he : decode w = .error e) :
    engineTurn s = .next (s.failed (decodeCmdError e).code (decodeCmdError e).detail) := by
  simp only [engineTurn, h, he, rejectWord, finish_raise]

/-- Settles O3: the engine's turn on what `decode` answers for the word's fields. -/
theorem dispatchOfPendingWord : Obligations.DispatchOfPendingWord := by
  intro s w hturn hw u
  have hu : u.pending = some w := hw
  rw [step_eq_engineTurn hturn]
  refine ⟨fun hop => ?_, fun hop hrsv => ?_, fun i hop hrsv => ?_⟩
  · exact engineTurn_of_rejected hu (decode_of_unknownOpcode hop)
  · exact engineTurn_of_rejected hu (decode_of_reservedBits hop hrsv)
  · exact engineTurn_of_decode hu ((decode_eq_ok_iff w i).2 ⟨hop, hrsv⟩)

end Sys2Proof.Machine
end

section
/-! What the write set of a pending command covers (70_reset R341; log 6): the buffers of 30_encoding R123, and the exact
ranges of a FRAME_ENCODE that renders a frame. -/

namespace Sys2Proof.Machine

/-! ### Covered bytes -/

theorem pendingStores_of_decode {P : Params} {s : State} {w : Word} {i : Instr} (h : s.pending = some w)
    (hi : decode w = .ok i) : pendingStores P s = (commandResult P i s).stores := by
  simp only [pendingStores, h, hi]

theorem pendingStores_of_rejected {P : Params} {s : State} {w : Word} {e : DecodeError} (h : s.pending = some w)
    (he : decode w = .error e) : pendingStores P s = [] := by
  simp only [pendingStores, h, he]

/-- The covered bytes of a pending command are those of its stores. -/
theorem pendingStores_covers_iff {P : Params} {s : State} {w : Word} {i : Instr} (h : s.pending = some w)
    (hi : decode w = .ok i) (sp : Space) (a : Nat) :
    (pendingStores P s).any (fun st => st.covers sp a) = true ↔
      ∃ st ∈ (commandResult P i s).stores, st.covers sp a = true := by
  rw [pendingStores_of_decode h hi, List.any_eq_true]

theorem Store.covers_iff (st : Store) (sp : Space) (a : Nat) :
    st.covers sp a = true ↔ st.space = sp ∧ st.off ≤ a ∧ a < st.off + st.bytes.length := decide_eq_true_iff

/-- A byte that a store inside its space covers lies in the space (20_memory R86). -/
theorem Store.InBounds.lt_sizeOf {P : Params} {st : Store} (h : st.InBounds P) {sp : Space} {a : Nat}
    (hc : st.covers sp a = true) : a < P.sizeOf sp := by
  obtain ⟨rfl, hlo, hhi⟩ := (st.covers_iff sp a).1 hc
  obtain hnil | hle := h
  · rw [hnil, List.length_nil] at hhi
    omega
  · omega

/-- A byte that none of a command's stores covers is one the command leaves as it is. -/
theorem CommandEffect.loadByte_finish_of_not_covered {P : Params} {s : State} {i : Instr} {r : CmdResult}
    (h : CommandEffect P s i r) {sp : Space} {a : Nat} (hc : ∀ st ∈ r.stores, st.covers sp a = false) :
    r.finish.loadByte sp a = s.loadByte sp a := by
  obtain ⟨hpbuf, hebuf, hfb, hepoch, -⟩ := h.regs_keeps_buffers
  have hmem : r.regs.mem sp = s.mem sp := by cases sp <;> assumption
  calc r.finish.loadByte sp a = (r.regs.applyStores r.stores).loadByte sp a := complete_loadByte _ _ _ _
    _ = r.regs.loadByte sp a := State.loadByte_applyStores_of_not_covered _ _ _ _ hc
    _ = s.loadByte sp a := State.loadByte_congr sp a hmem hepoch

/-! ### The buffers a command writes -/

theorem fillRect_space {w : Nat} {rect : Rect} {c : Rgb} {st : Store} (h : st ∈ fillRect w rect c) : st.space = .fb := by
  obtain ⟨dy, -, rfl⟩ := (mem_fillRect w rect c st).1 h
  rfl

theorem renderFrom_space {s : State} {cols i : Nat} {bs : List Byte} {st : Store} (h : st ∈ renderFrom s cols i bs) :
    st.space = .fb := by
  induction bs generalizing i with
  | nil => exact absurd h List.not_mem_nil
  | cons b bs ih =>
    obtain h | h := List.mem_append.1 h
    · exact fillRect_space h
    · exact ih h

theorem renderStores_space {s : State} {cols : Nat} {env : List Byte} {st : Store} (h : st ∈ renderStores s cols env) :
    st.space = .fb := by
  obtain h | h := List.mem_append.1 h
  · exact fillRect_space h
  · exact renderFrom_space h

/-- The buffers in the writes column of a command's row of 30_encoding R123. -/
def resultBuffers : Instr → List Space
  | .fbClear | .fillBlock => [.fb]
  | .rsEnc | .rsDec | .envBuild => [.ebuf]
  | .envParse => [.pbuf]
  | .frameEncode => [.fb, .ebuf]
  | .frameDecode => [.ebuf, .pbuf]
  | _ => []

/-- A command stores to the buffers of its row of 30_encoding R123 only. -/
theorem CommandEffect.space_mem_resultBuffers {P : Params} {s : State} {i : Instr} {r : CmdResult}
    (h : CommandEffect P s i r) {st : Store} (hst : st ∈ r.stores) : st.space ∈ resultBuffers i := by
  cases h with
  | fbClear | fillBlock => exact List.mem_singleton.2 (fillRect_space hst)
  | rsEnc | rsDec | envBuild | envParse =>
    obtain rfl := List.mem_singleton.1 hst
    exact List.mem_singleton_self _
  | frameEncode =>
    obtain hst | hst := List.mem_append.1 hst
    · simp [resultBuffers, renderStores_space hst]
    · simp [resultBuffers, List.mem_singleton.1 hst]
  | frameDecodeScan => simp [resultBuffers, List.mem_singleton.1 hst]
  | frameDecode =>
    obtain rfl | hst := List.mem_cons.1 hst
    · simp [resultBuffers]
    · simp [resultBuffers, List.mem_singleton.1 hst]
  | _ => exact absurd hst List.not_mem_nil

theorem fb_mem_resultBuffers {i : Instr} (h : .fb ∈ resultBuffers i) :
    i ∈ [Instr.fbClear, .fillBlock, .frameEncode] := by
  cases i <;> simp [resultBuffers] at h ⊢

theorem ebuf_mem_resultBuffers {i : Instr} (h : .ebuf ∈ resultBuffers i) :
    i ∈ [Instr.rsEnc, .rsDec, .envBuild, .frameEncode, .frameDecode] := by
  cases i <;> simp [resultBuffers] at h ⊢

theorem pbuf_mem_resultBuffers {i : Instr} (h : .pbuf ∈ resultBuffers i) :
    i ∈ [Instr.envParse, .frameDecode] := by
  cases i <;> simp [resultBuffers] at h ⊢

/-! ### The rendered frame -/

/-- `Blank()` covers the whole frame area (20_memory R85): byte `a` lies in pixel row `a / 3w`. -/
theorem blankStores_cover {s : State} {a : Nat} (h : a < 3 * (s.frameW.toNat * s.frameH.toNat)) :
    ∃ st ∈ blankStores s, st.covers .fb a = true := by
  have hw : 0 < s.frameW.toNat := Nat.pos_of_ne_zero fun h0 => by simp [h0] at h
  have hrow : a / (3 * s.frameW.toNat) < s.frameH.toNat := Nat.div_lt_of_lt_mul (by rwa [Nat.mul_assoc])
  have hdiv := Nat.div_add_mod a (3 * s.frameW.toNat)
  have hmod := Nat.mod_lt a (show 0 < 3 * s.frameW.toNat by omega)
  refine (fillRect_covers _ _ _ _ _).2 ⟨rfl, a / (3 * s.frameW.toNat), Nat.zero_le _, ?_, ?_⟩
  · dsimp only; omega
  · rw [Nat.mul_assoc, Nat.mul_comm s.frameW.toNat] at hdiv
    simp only [fbAddr]
    omega

/-- The parameters of a block whose pixel limit and frame buffer just hold the frame of `s`. -/
def fitFrame (P : Params) (s : State) : Params :=
  { P with
    maxPixels := s.frameW.toNat * s.frameH.toNat
    fbBytes   := 3 * (s.frameW.toNat * s.frameH.toNat) }

theorem gridCompute_fitFrame {P : Params} {s : State} {g : Grid} (hg : gridCompute P s = .ok g) :
    gridCompute (fitFrame P s) s = .ok g := by
  obtain ⟨hbw, hbh, hw, hh, -, hgrid⟩ := (gridCompute_eq_ok P s g).1 hg
  exact (gridCompute_eq_ok _ s g).2 ⟨hbw, hbh, hw, hh, le_rfl, hgrid⟩

/-- Rendering stays in the frame area, since it stays inside a frame buffer of just the frame's size. -/
theorem renderStores_covers_lt {P : Params} {s : State} {g : Grid} (hg : gridCompute P s = .ok g) {env : List Byte}
    (henv : env.length ≤ g.n) {st : Store} (hst : st ∈ renderStores s g.cols env) {sp : Space} {a : Nat}
    (hc : st.covers sp a = true) : sp = .fb ∧ a < 3 * (s.frameW.toNat * s.frameH.toNat) := by
  have hin : st.InBounds (fitFrame P s) := renderStores_inBounds le_rfl (gridCompute_fitFrame hg) henv hst
  have hspace := renderStores_space hst
  obtain rfl : sp = .fb := ((st.covers_iff sp a).1 hc).1.symm.trans hspace
  exact ⟨rfl, hin.lt_sizeOf hc⟩

/-- The bytes that rendering covers are those of the frame area (44_frame_pipelines R261). -/
theorem renderStores_covers {P : Params} {s : State} {g : Grid} (hg : gridCompute P s = .ok g) {env : List Byte}
    (henv : env.length ≤ g.n) (sp : Space) (a : Nat) :
    (∃ st ∈ renderStores s g.cols env, st.covers sp a = true) ↔
      sp = .fb ∧ a < 3 * (s.frameW.toNat * s.frameH.toNat) := by
  constructor
  · rintro ⟨st, hst, hc⟩
    exact renderStores_covers_lt hg henv hst hc
  · rintro ⟨rfl, ha⟩
    obtain ⟨st, hst, hc⟩ := blankStores_cover ha
    exact ⟨st, List.mem_append_left _ hst, hc⟩

/-! ### A FRAME_ENCODE that renders -/

/-- The grid of usable dimension registers (42_frame_geometry R180). -/
theorem gridCompute_of_dimsUsable {s : State} (h : s.dimsUsable) :
    gridCompute Config.params s = .ok ⟨s.dimCols, s.dimRows, s.dimN, (s.dimN : Int) - 8 - 64⟩ := by
  obtain ⟨hbw, hbh, hw, hh, hmax⟩ := h
  exact (gridCompute_eq_ok _ _ _).2 ⟨hbw, hbh, hw, hh, hmax, rfl⟩

theorem envelopeOf_length (payload : List Byte) :
    (envelopeOf payload).length = 8 + payload.length + min payload.length 64 := by
  simp only [envelopeOf, List.length_append, rsEncode_length, le32, List.length_cons, List.length_nil]
  omega

theorem buildEnvelope_of_fits {payload : List Byte} {n : Nat} (h : 8 + payload.length + min payload.length 64 ≤ n) :
    buildEnvelope Config.params payload n =
      .ok ⟨envelopeOf payload, payload.length + min payload.length 64, min payload.length 64⟩ :=
  (buildEnvelope_eq_ok _ _ _ _).2 ⟨h, rfl⟩

/-- The stores of a FRAME_ENCODE whose checks pass (44_frame_pipelines R260 to R262). -/
theorem cmdFrameEncode_stores {s : State} (hdims : s.dimsUsable) (hpos : 0 < s.streamLen.toNat)
    (hlen : s.streamLen.toNat ≤ 2073600) (hn : 72 < s.dimN) :
    let env := envelopeOf (s.loadBytes .pbuf 0 (min s.streamLen.toNat (s.dimN - 72)))
    (cmdFrameEncode Config.params s).stores = renderStores s s.dimCols env ++ [⟨.ebuf, 0, env⟩] := by
  intro env
  have hcap : ((s.dimN : Int) - 8 - 64).toNat = s.dimN - 72 := by omega
  have hfits := buildEnvelope_of_fits (n := s.dimN)
    (payload := s.loadBytes .pbuf 0 (min s.streamLen.toNat (s.dimN - 72))) (by rw [loadBytes_length]; omega)
  simp only [cmdFrameEncode, gridCompute_of_dimsUsable hdims, hcap, hfits,
    if_neg (show ¬ Config.params.pbufBytes < s.streamLen.toNat from hlen.not_gt), if_neg hpos.ne',
    if_neg (show ¬ (s.dimN : Int) - 8 - 64 ≤ 0 by omega)]
  rfl

/-- R341's own example: the frame area and `EBUF[0:ENV_LEN]` are what a FRAME_ENCODE covers. -/
theorem cmdFrameEncode_covers {s : State} (hdims : s.dimsUsable) (hpos : 0 < s.streamLen.toNat)
    (hlen : s.streamLen.toNat ≤ 2073600) (hn : 72 < s.dimN) (sp : Space) (a : Nat) :
    let k := min s.streamLen.toNat (s.dimN - 72)
    (∃ st ∈ (cmdFrameEncode Config.params s).stores, st.covers sp a = true) ↔
      (sp = .fb ∧ a < 3 * (s.frameW.toNat * s.frameH.toNat)) ∨ (sp = .ebuf ∧ a < 8 + k + min k 64) := by
  intro k
  have henv : (envelopeOf (s.loadBytes .pbuf 0 k)).length = 8 + k + min k 64 := by
    rw [envelopeOf_length, loadBytes_length]
  have hfits : (envelopeOf (s.loadBytes .pbuf 0 k)).length ≤ s.dimN := by omega
  simp only [cmdFrameEncode_stores hdims hpos hlen hn, List.mem_append, List.mem_singleton, or_and_right, exists_or,
    exists_eq_left]
  refine or_congr (renderStores_covers (gridCompute_of_dimsUsable hdims) hfits sp a) ?_
  rw [Store.covers_iff, henv]
  simp [eq_comm]

/-- Settles O60, from what any command's stores are; the example is FRAME_ENCODE's stores range by range. -/
theorem writeSetOfPendingCommand : Obligations.WriteSetOfPendingCommand := by
  intro s w hw covered
  refine ⟨fun i hi => ?_, fun e he sp a => ?_, fun hword hdims hpos hlen hn => ?_⟩
  · have heffect := commandResult_effect Config.params s i
    have hbuf : ∀ sp a, covered sp a → sp ∈ resultBuffers i := by
      intro sp a hc
      obtain ⟨st, hst, hc⟩ := (pendingStores_covers_iff hw hi sp a).1 hc
      exact ((st.covers_iff sp a).1 hc).1 ▸ heffect.space_mem_resultBuffers hst
    refine ⟨fun t ht sp a hc => ?_, fun a hc => fb_mem_resultBuffers (hbuf _ a hc),
      fun a hc => ebuf_mem_resultBuffers (hbuf _ a hc), fun a hc => pbuf_mem_resultBuffers (hbuf _ a hc)⟩
    cases (exec_eq_finish i s).symm.trans ht
    exact heffect.loadByte_finish_of_not_covered fun st hst =>
      Bool.eq_false_iff.2 fun hst' => hc ((pendingStores_covers_iff hw hi sp a).2 ⟨st, hst, hst'⟩)
  · simp [covered, pendingStores_of_rejected hw he]
  · have hi : decode w = .ok .frameEncode := (decodeAgreesWithEncode w _).2 hword
    exact fun sp a => (pendingStores_covers_iff hw hi sp a).trans (cmdFrameEncode_covers hdims hpos hlen hn sp a)

end Sys2Proof.Machine
end

section
/-! The color codec's mathematics: the levels of a byte (41_color_codec R150 to R154), the integer square root, the median
and the deviation of a list of channel values, and the robust estimate as the floor of a real number (R163 to R166). -/

namespace Sys2Proof.Machine

/-! ### Levels -/

theorem decodeLevel_eq (v step width : Nat) : decodeLevel v step width = v / step % 2 ^ width :=
  Nat.and_two_pow_sub_one_eq_mod _ _

/-- The levels of `RRRGGBBB` count in units of 32, 8 and 1. -/
theorem recompose_toNat (r g b : Nat) :
    (recompose r g b).toNat = 32 * (r / 36 % 8) + 8 * (g / 85 % 4) + b / 36 % 8 := by
  have hr : r / 36 % 8 < 8 := Nat.mod_lt _ (by decide)
  have hg : g / 85 % 4 < 4 := Nat.mod_lt _ (by decide)
  have hb : b / 36 % 8 < 8 := Nat.mod_lt _ (by decide)
  simp only [recompose, decodeLevel_eq, Config.step3, Config.step2, Nat.reducePow, BitVec.toNat_ofNat, Nat.lor_assoc]
  rw [← Nat.shiftLeft_add_eq_or_of_lt (i := 3) hb, ← Nat.shiftLeft_add_eq_or_of_lt (i := 5) (by omega)]
  simp only [Nat.shiftLeft_eq]
  omega

/-- An 8-bit channel value has a level inside its field, so the mask changes nothing (41_color_codec R151). -/
theorem decodeColor_toNat (c : Rgb) :
    (decodeColor c).toNat = 32 * (c.r.toNat / 36) + 8 * (c.g.toNat / 85) + c.b.toNat / 36 := by
  rw [decodeColor, recompose_toNat]
  omega

section
variable (b : Byte)

theorem encodeColor_r_toNat : (encodeColor b).r.toNat = 36 * (b.toNat / 32) := by
  simp only [encodeColor, Config.step3, BitVec.toNat_ofNat, BitVec.extractLsb'_toNat, Nat.shiftRight_eq_div_pow,
    Nat.reducePow]
  rw [Nat.mod_eq_of_lt (by omega), Nat.mod_eq_of_lt (by omega), Nat.mul_comm]

theorem encodeColor_g_toNat : (encodeColor b).g.toNat = 85 * (b.toNat / 8 % 4) := by
  simp only [encodeColor, Config.step2, BitVec.toNat_ofNat, BitVec.extractLsb'_toNat, Nat.shiftRight_eq_div_pow,
    Nat.reducePow]
  rw [Nat.mod_eq_of_lt (by omega), Nat.mul_comm]

theorem encodeColor_b_toNat : (encodeColor b).b.toNat = 36 * (b.toNat % 8) := by
  simp only [encodeColor, Config.step3, BitVec.toNat_ofNat, BitVec.extractLsb'_toNat, Nat.shiftRight_zero, Nat.reducePow]
  rw [Nat.mod_eq_of_lt (by omega), Nat.mul_comm]

/-- The noiseless round trip of 41_color_codec R154. -/
theorem decodeColor_encodeColor : decodeColor (encodeColor b) = b := by
  apply BitVec.eq_of_toNat_eq
  rw [decodeColor_toNat, encodeColor_r_toNat, encodeColor_g_toNat, encodeColor_b_toNat]
  omega

end

/-! ### The integer square root -/

/-- The digits still to find: with the root between `d` and `d + 2^k`, they complete `d` to the root. -/
theorem isqrtDigits_eq_sqrt (k z d : Nat) (hlo : d ≤ z.sqrt) (hhi : z.sqrt < d + 2 ^ k) :
    isqrtDigits k z d = z.sqrt := by
  induction k generalizing d with
  | zero =>
    rw [isqrtDigits]
    omega
  | succ k ih =>
    rw [Nat.pow_succ] at hhi
    rw [isqrtDigits]
    split
    case isTrue h => exact ih _ (Nat.le_sqrt.2 h) (by omega)
    case isFalse h => exact ih d hlo (by rwa [← Nat.le_sqrt, Nat.not_le] at h)

theorem isqrt_eq_sqrt (z : Nat) : isqrt z = z.sqrt := by
  refine isqrtDigits_eq_sqrt _ z 0 (Nat.zero_le _) ?_
  rw [Nat.zero_add, Nat.sqrt_lt, ← Nat.pow_add]
  exact Nat.lt_log2_self.trans_le (Nat.pow_le_pow_right two_pos (by omega))

/-- The floor of a real root is the integer root of the floor. -/
theorem floor_real_sqrt (x : ℝ) : ⌊√x⌋₊ = Nat.sqrt ⌊x⌋₊ := by
  refine eq_of_forall_le_iff fun d => ?_
  rw [Nat.le_floor_iff (Real.sqrt_nonneg x), Nat.le_sqrt]
  obtain rfl | hd := Nat.eq_zero_or_pos d
  · simp [Real.sqrt_nonneg]
  · rw [Real.le_sqrt' (Nat.cast_pos.2 hd), Nat.le_floor_iff' (by positivity), Nat.cast_mul, sq]

/-! ### Median and deviation -/

/-- The default `MEDIAN_KIND`: twice the median of 41_color_codec R164, as a real number. -/
theorem twiceMedian_meanOfMiddle (sorted : List Nat) :
    (twiceMedian .meanOfMiddle sorted : ℝ) / 2 =
      if sorted.length % 2 = 1 then (sorted.getD ((sorted.length - 1) / 2) 0 : ℝ)
      else ((sorted.getD (sorted.length / 2 - 1) 0 : ℝ) + (sorted.getD (sorted.length / 2) 0 : ℝ)) / 2 := by
  rw [twiceMedian]
  split <;> push_cast <;> ring

/-- The population variance, the square of the default `sd` of 41_color_codec R165. -/
noncomputable def variance (vals : List Nat) : ℝ :=
  (vals.map fun v : Nat => ((v : ℝ) - (vals.sum : ℝ) / vals.length) ^ 2).sum / vals.length

/-- The sum of squared deviations from any `m`, from the sums of the values and of their squares. -/
theorem sum_sq_sub (vals : List Nat) (m : ℝ) :
    (vals.map fun v : Nat => ((v : ℝ) - m) ^ 2).sum =
      ((vals.map fun v => v * v).sum : ℕ) - 2 * m * (vals.sum : ℕ) + vals.length * m ^ 2 := by
  induction vals with
  | nil => simp
  | cons v vals ih =>
    simp only [List.map_cons, List.sum_cons, List.length_cons, ih, Nat.cast_add, Nat.cast_mul, Nat.cast_one]
    ring

theorem variance_nonneg (vals : List Nat) : 0 ≤ variance vals :=
  div_nonneg (List.sum_nonneg (by simpa using fun v _ => sq_nonneg _)) (Nat.cast_nonneg _)

/-- The variance is `Q / D` of 41_color_codec R166. `Q` is a truncated difference in the model; the variance is not
negative, so the truncation loses nothing. -/
theorem variance_eq_div {vals : List Nat} (hne : vals ≠ []) :
    variance vals = ((vals.length * (vals.map fun v => v * v).sum - vals.sum * vals.sum : ℕ) : ℝ) /
      ((vals.length * vals.length : ℕ) : ℝ) := by
  have hn : 0 < (vals.length : ℝ) := Nat.cast_pos.2 (List.length_pos_iff.2 hne)
  have hscaled : ((vals.length * vals.length : ℕ) : ℝ) * variance vals =
      ((vals.length * (vals.map fun v => v * v).sum : ℕ) : ℝ) - ((vals.sum * vals.sum : ℕ) : ℝ) := by
    rw [variance, sum_sq_sub]
    simp only [Nat.cast_mul]
    field_simp
    ring
  have hle : vals.sum * vals.sum ≤ vals.length * (vals.map fun v => v * v).sum := by
    have hnonneg := mul_nonneg (Nat.cast_nonneg (α := ℝ) (vals.length * vals.length)) (variance_nonneg vals)
    rw [hscaled] at hnonneg
    exact Nat.cast_le.1 (sub_nonneg.1 hnonneg)
  rw [Nat.cast_sub hle, ← hscaled, mul_div_cancel_left₀]
  push_cast
  positivity

/-- The default `STD_DDOF`: `dm` is the floor of twice the population standard deviation (41_color_codec R166). -/
theorem twiceDeviation_eq_floor {vals : List Nat} (hne : vals ≠ []) :
    twiceDeviation 0 vals = ⌊2 * √(variance vals)⌋₊ := by
  have hd : vals.length * vals.length ≠ 0 := by simpa using hne
  have hdouble : 2 * √(variance vals) = √(4 * variance vals) := by
    rw [Real.sqrt_mul (by norm_num), show (4 : ℝ) = 2 ^ 2 by norm_num, Real.sqrt_sq (by norm_num)]
  rw [hdouble, floor_real_sqrt, variance_eq_div hne, ← mul_div_assoc, ← Nat.cast_ofNat (n := 4), ← Nat.cast_mul,
    Nat.floor_div_eq_div, twiceDeviation, Nat.sub_zero, if_neg hd, isqrt_eq_sqrt]

/-! ### The estimate -/

theorem insertionSort_eq_of_perm {vals sorted : List Nat} (hperm : sorted.Perm vals)
    (hsorted : sorted.Pairwise (· ≤ ·)) : vals.insertionSort (· ≤ ·) = sorted :=
  ((List.perm_insertionSort _ vals).trans hperm.symm).eq_of_pairwise' (List.pairwise_insertionSort _ vals) hsorted

/-- Half of an integer plus a real number, rounded down: the integer can be added after rounding twice the real number. -/
theorem floor_half_add (m : ℕ) {x : ℝ} (hx : 0 ≤ x) : ⌊(m : ℝ) / 2 + x⌋₊ = (m + ⌊2 * x⌋₊) / 2 := by
  rw [show (m : ℝ) / 2 + x = (2 * x + m) / (2 : ℕ) by push_cast; ring, Nat.floor_div_natCast,
    Nat.floor_add_natCast (by positivity), Nat.add_comm]

/-- The default parameters: the estimate is the floor of median plus deviation, since `m2` is an integer and halving
commutes with the floor (41_color_codec R166). -/
theorem est_eq_floor {vals sorted : List Nat} (hne : vals ≠ []) (hperm : sorted.Perm vals)
    (hsorted : sorted.Pairwise (· ≤ ·)) :
    est Config.params vals = ⌊(twiceMedian .meanOfMiddle sorted : ℝ) / 2 + √(variance vals)⌋₊ := by
  rw [floor_half_add _ (Real.sqrt_nonneg _), ← twiceDeviation_eq_floor hne, est, insertionSort_eq_of_perm hperm hsorted]
  rfl

/-- Settles O22. The statement's list of real values is the cast of `vals`. -/
theorem estimateIsFloorOfMedianPlusDeviation : Obligations.EstimateIsFloorOfMedianPlusDeviation := by
  intro vals sorted hne hperm hsorted n mean median sd
  have hmedian : median = (twiceMedian .meanOfMiddle sorted : ℝ) / 2 := by
    rw [twiceMedian_meanOfMiddle, hperm.length_eq]
  have hsd : sd = √(variance vals) := by
    simp [sd, variance, mean, n, ← List.map_eq_flatMap, Function.comp_def]
  have hnonneg : 0 ≤ median + sd := by
    rw [hmedian, hsd]
    positivity
  rw [est_eq_floor hne hperm hsorted, ← hmedian, ← hsd, Int.natCast_floor_eq_floor hnonneg]

/-- A list of equal values has its value as median and no deviation, whatever the parameters (41_color_codec R168). -/
theorem est_of_forall_eq (P : Params) {vals : List Nat} {v : Nat} (hne : vals ≠ []) (h : ∀ x ∈ vals, x = v) :
    est P vals = v := by
  obtain ⟨n, hn, rfl⟩ : ∃ n, 0 < n ∧ vals = List.replicate n v :=
    ⟨vals.length, List.length_pos_iff.2 hne, List.eq_replicate_iff.2 ⟨rfl, h⟩⟩
  have hget (i : Nat) (hi : i < n) : (List.replicate n v).getD i 0 = v := by simp [hi]
  have hmedian : twiceMedian P.medianKind (List.replicate n v) = 2 * v := by
    simp only [twiceMedian, List.length_replicate]
    split
    · rw [hget _ (by omega)]
    · split
      · rw [hget _ (by omega), hget _ (by omega), Nat.two_mul]
      · rw [hget _ (by omega)]
  have hdeviation : twiceDeviation P.stdDdof (List.replicate n v) = 0 := by
    have hq : n * (n * (v * v)) - n * v * (n * v) = 0 := Nat.sub_eq_zero_of_le (le_of_eq (by ring))
    simp [twiceDeviation, isqrt_eq_sqrt, hq]
  rw [est, (List.pairwise_replicate.2 (.inr le_rfl)).insertionSort_eq, hmedian, hdeviation]
  omega

end Sys2Proof.Machine
end

section
/-! The color commands of 41_color_codec: the current block and its checks (R160), reading and filling it (20_memory R83,
R84), and the statements about QUANT, DEQUANT_PIX, FILL_BLOCK and DEQUANT_BLOCK. -/

namespace Sys2Proof.Machine

/-! ### One color -/

/-- Settles O15, from the levels that `encodeColor` scales and the fields of `QRGB`. -/
theorem quantScalesLevels : Obligations.QuantScalesLevels :=
  ⟨rfl, fun s => ⟨_, rfl, rfl, encodeColor_r_toNat s.qbyte, encodeColor_g_toNat s.qbyte, encodeColor_b_toNat s.qbyte,
    packRgb_toNat _⟩⟩

/-- Settles O16: the quotients of 8-bit channel values fit their fields. -/
theorem dequantPixDividesLevels : Obligations.DequantPixDividesLevels :=
  ⟨rfl, fun s => ⟨_, rfl, rfl, decodeColor_toNat s.dqRgb⟩⟩

/-- Settles O17, from the round trip of the codec functions. -/
theorem quantThenDequantRestoresByte : Obligations.QuantThenDequantRestoresByte :=
  ⟨decodeColor_encodeColor, fun s => ⟨_, _, rfl, rfl, decodeColor_encodeColor s.qbyte⟩⟩

/-! ### The current block -/

theorem toNat_eq_zero_iff {n : Nat} (x : BitVec n) : x.toNat = 0 ↔ x = 0 := BitVec.toNat_inj (y := 0)

/-- The rectangle of the traversal position, for the current block dimensions (41_color_codec R160). -/
abbrev State.currentBlock (s : State) : Rect :=
  blockRect s.blockW.toNat s.blockH.toNat s.travX.toNat s.travY.toNat

section
variable {s : State}

/-- Past the checks of R160 that the dimension registers meet, the position's own two checks remain. -/
theorem currentRect_of_dimsUsable (h : s.dimsUsable) : currentRect Config.params s =
    if s.gridN.toNat ≤ s.travIdx.toNat then .error .travDone
    else if s.frameW.toNat ≤ s.currentBlock.x1 ∨ s.frameH.toNat ≤ s.currentBlock.y1 then .error .rectOut
    else .ok s.currentBlock := by
  obtain ⟨hbw, hbh, hw, hh, hmax⟩ := h
  rw [currentRect, if_neg (not_or.2 ⟨hbw, hbh⟩), if_neg (not_or.2 ⟨hw, hh⟩)]
  exact if_neg hmax.not_gt

theorem currentRect_blockDimZero (h : s.blockW = 0 ∨ s.blockH = 0) :
    currentRect Config.params s = .error .blockDimZero := by
  simp only [currentRect, toNat_eq_zero_iff, h, if_true]

theorem currentRect_frameDimZero (hbw : s.blockW ≠ 0) (hbh : s.blockH ≠ 0) (h : s.frameW = 0 ∨ s.frameH = 0) :
    currentRect Config.params s = .error .frameDimZero := by
  simp only [currentRect, toNat_eq_zero_iff, hbw, hbh, h, or_self, if_true, if_false]

theorem currentRect_frameTooLarge (hbw : s.blockW ≠ 0) (hbh : s.blockH ≠ 0) (hw : s.frameW ≠ 0) (hh : s.frameH ≠ 0)
    (h : 2073600 < s.frameW.toNat * s.frameH.toNat) : currentRect Config.params s = .error .frameTooLarge := by
  have hmax : Config.params.maxPixels < s.frameW.toNat * s.frameH.toNat := h
  simp only [currentRect, toNat_eq_zero_iff, hbw, hbh, hw, hh, hmax, or_self, if_true, if_false]

theorem currentRect_travDone (hdims : s.dimsUsable) (h : s.gridN.toNat ≤ s.travIdx.toNat) :
    currentRect Config.params s = .error .travDone := by
  rw [currentRect_of_dimsUsable hdims, if_pos h]

theorem currentRect_rectOut (hdims : s.dimsUsable) (hidx : s.travIdx.toNat < s.gridN.toNat)
    (h : s.frameW.toNat < (s.travX.toNat + 1) * s.blockW.toNat ∨ s.frameH.toNat < (s.travY.toNat + 1) * s.blockH.toNat) :
    currentRect Config.params s = .error .rectOut := by
  rw [currentRect_of_dimsUsable hdims, if_neg hidx.not_ge]
  exact if_pos (h.imp Nat.le_sub_one_of_lt Nat.le_sub_one_of_lt)

theorem currentRect_of_blockUsable (h : s.blockUsable) : currentRect Config.params s = .ok s.currentBlock := by
  obtain ⟨hbw, hbh, hw, hh, hmax, hidx, hx, hy⟩ := h
  have hx1 : s.currentBlock.x1 < s.frameW.toNat := by
    simp only [State.currentBlock, blockRect]
    omega
  have hy1 : s.currentBlock.y1 < s.frameH.toNat := by
    simp only [State.currentBlock, blockRect]
    omega
  exact (currentRect_eq_ok _ _ _).2 ⟨hbw, hbh, hw, hh, hmax, hidx, rfl, hx1, hy1⟩

end

/-- The commands that work on the current block fail as its checks do, with nothing written (60_exceptions R310). -/
theorem exec_of_currentRect_error {s : State} {e : CmdError} (h : currentRect Config.params s = .error e) {i : Instr}
    (hi : i ∈ [Instr.fillBlock, .dequantBlock]) : exec i s = .next (s.failed e.code e.detail) := by
  have hresult : commandResult Config.params i s = .raise s e := by
    obtain rfl | rfl : i = .fillBlock ∨ i = .dequantBlock := by simpa using hi
    · simp only [commandResult, cmdFillBlock, h]
    · simp only [commandResult, cmdDequantBlock, h]
  rw [exec_eq_finish, hresult, finish_raise]

/-- Settles O18, check by check. -/
theorem currentBlockChecks : Obligations.CurrentBlockChecks := by
  refine fun s => ⟨fun i hi => ⟨fun h => ?_, fun hbw hbh h => ?_, fun hbw hbh hw hh h => ?_, fun hdims h => ?_,
    fun hdims hidx h => ?_⟩, currentRect_of_blockUsable⟩
  · exact exec_of_currentRect_error (currentRect_blockDimZero h) hi
  · exact exec_of_currentRect_error (currentRect_frameDimZero hbw hbh h) hi
  · exact exec_of_currentRect_error (currentRect_frameTooLarge hbw hbh hw hh h) hi
  · exact exec_of_currentRect_error (currentRect_travDone hdims h) hi
  · exact exec_of_currentRect_error (currentRect_rectOut hdims hidx h) hi

/-! ### Filling a rectangle -/

/-- Stores to the frame buffer change nothing else of the state. -/
theorem applyStores_eq_of_fb {s : State} {sts : List Store} (h : ∀ st ∈ sts, st.space = .fb) :
    s.applyStores sts = { s with fb := (s.applyStores sts).fb } := by
  induction sts generalizing s with
  | nil => rfl
  | cons st sts ih =>
    obtain ⟨sp, off, bs⟩ := st
    obtain rfl : sp = .fb := h _ List.mem_cons_self
    exact ih fun st hst => h st (List.mem_cons_of_mem _ hst)

/-- A filled rectangle covers the bytes of its own pixels and of no other pixel of the frame (20_memory R82, R83). -/
theorem fillRect_covers_pixel {w px py c : Nat} {rect : Rect} (hx : rect.x1 < w) (hpx : px < w) (hc : c < 3) (col : Rgb) :
    (∃ st ∈ fillRect w rect col, st.covers .fb (fbAddr w px py c) = true) ↔
      rect.x0 ≤ px ∧ px ≤ rect.x1 ∧ rect.y0 ≤ py ∧ py ≤ rect.y1 := by
  rw [fillRect_covers]
  simp only [fbAddr]
  constructor
  · rintro ⟨-, row, hlo, hhi, ha, hb⟩
    have hstep {i j : Nat} (h : i < j) : i * w + w ≤ j * w := Nat.succ_mul i w ▸ Nat.mul_le_mul_right w h
    have hrow : row = py := by
      obtain hlt | rfl | hgt := Nat.lt_trichotomy row py
      · have := hstep hlt
        omega
      · rfl
      · have := hstep hgt
        omega
    subst hrow
    omega
  · rintro ⟨hx0, hx1, hy0, hy1⟩
    exact ⟨trivial, py, hy0, hy1, by omega, by omega⟩

/-- What a pixel of the frame reads after a rectangle is filled. -/
theorem loadByte_applyStores_fillRect (s : State) {w px py c : Nat} {rect : Rect} (hx : rect.x1 < w) (hpx : px < w)
    (hc : c < 3) (col : Rgb) :
    (s.applyStores (fillRect w rect col)).loadByte .fb (fbAddr w px py c) =
      if rect.x0 ≤ px ∧ px ≤ rect.x1 ∧ rect.y0 ≤ py ∧ py ≤ rect.y1 then rgbChannel col c
      else s.loadByte .fb (fbAddr w px py c) := by
  have hcovers := fillRect_covers_pixel hx hpx hc col (py := py)
  split
  case isTrue h =>
    have hmod : fbAddr w px py c % 3 = c := by
      simp only [fbAddr]
      omega
    exact State.loadByte_applyStores_of_covered _ _ _ _ _
      (fun st hst hc => by rw [fillRect_byte _ _ _ _ _ _ hst hc, hmod]) (.inl (hcovers.2 h))
  case isFalse h =>
    exact State.loadByte_applyStores_of_not_covered _ _ _ _ fun st hst =>
      Bool.eq_false_iff.2 fun hst' => h (hcovers.1 ⟨st, hst, hst'⟩)

/-- A rectangle inside the frame is filled inside the frame area. -/
theorem fillRect_covers_lt {w h : Nat} {rect : Rect} (hx : rect.x1 < w) (hy : rect.y1 < h) {col : Rgb} {st : Store}
    (hst : st ∈ fillRect w rect col) {sp : Space} {a : Nat} (hc : st.covers sp a = true) :
    sp = .fb ∧ a < 3 * (w * h) := by
  have hin : st.InBounds { Config.params with fbBytes := 3 * (w * h) } := fillRect_inBounds hx hy le_rfl hst
  obtain rfl : sp = .fb := ((st.covers_iff sp a).1 hc).1.symm.trans (fillRect_space hst)
  exact ⟨rfl, hin.lt_sizeOf hc⟩

/-! ### FILL_BLOCK -/

/-- The pixels between the bounds of the current block's rectangle are those of the block (42_frame_geometry R181). -/
theorem inCurrentBlock_iff {s : State} (hbw : s.blockW.toNat ≠ 0) (hbh : s.blockH.toNat ≠ 0) (px py : Nat) :
    s.inCurrentBlock px py ↔
      s.currentBlock.x0 ≤ px ∧ px ≤ s.currentBlock.x1 ∧ s.currentBlock.y0 ≤ py ∧ py ≤ s.currentBlock.y1 := by
  have hx : 0 < (s.travX.toNat + 1) * s.blockW.toNat := by positivity
  have hy : 0 < (s.travY.toNat + 1) * s.blockH.toNat := by positivity
  simp only [State.inCurrentBlock, State.currentBlock, blockRect]
  omega

/-- FILL_BLOCK on a usable block: `QRGB` written and the block's rectangle filled (41_color_codec R161). -/
theorem exec_fillBlock_of_blockUsable {s : State} (h : s.blockUsable) :
    exec .fillBlock s = .next ({ s with qrgb := encodeColor s.qbyte }.applyStores
      (fillRect s.frameW.toNat s.currentBlock (encodeColor s.qbyte))).completed := by
  rw [exec_eq_finish]
  simp only [commandResult, cmdFillBlock, currentRect_of_blockUsable h, finish_ok]

/-- Settles O19, from what a filled rectangle covers. -/
theorem fillBlockRendersByte : Obligations.FillBlockRendersByte := by
  refine ⟨rfl, fun s => ⟨fun h => ⟨_, exec_fillBlock_of_blockUsable h, ?_, fun px py c hpx _ hc => ?_,
    fun sp a hout => ?_⟩, fun e he => exec_of_currentRect_error he (by simp)⟩⟩
  all_goals obtain ⟨hbw, hbh, -, -, -, -, -, hx, hy⟩ := (currentRect_eq_ok _ _ _).1 (currentRect_of_blockUsable h)
  · exact congrArg State.completed (applyStores_eq_of_fb fun st hst => fillRect_space hst)
  · rw [← complete_none_eq, complete_loadByte, loadByte_applyStores_fillRect _ hx hpx hc]
    exact if_congr (inCurrentBlock_iff hbw hbh px py).symm rfl rfl
  · rw [← complete_none_eq, complete_loadByte]
    refine State.loadByte_applyStores_of_not_covered _ _ _ _ fun st hst => Bool.eq_false_iff.2 fun hc => ?_
    obtain ⟨rfl, hlt⟩ := fillRect_covers_lt hx hy hst hc
    exact hout.elim (· rfl) hlt.not_ge

/-! ### DEQUANT_BLOCK -/

/-- The rectangle of the current block holds `BLOCK_H` rows of `BLOCK_W` pixels (20_memory R84). -/
theorem readChannel_currentBlock {s : State} (hbw : s.blockW.toNat ≠ 0) (hbh : s.blockH.toNat ≠ 0) (c : Nat) :
    readChannel s s.currentBlock c = s.blockChannel c := by
  have hsize (x b : Nat) (hb : b ≠ 0) : (x + 1) * b - 1 + 1 - x * b = b := by
    rw [Nat.succ_mul]
    omega
  simp only [readChannel, State.blockChannel, State.currentBlock, blockRect, hsize _ _ hbw, hsize _ _ hbh]

/-- DEQUANT_BLOCK on a usable block (41_color_codec R162, R167). -/
theorem exec_dequantBlock_of_blockUsable {s : State} (h : s.blockUsable) :
    exec .dequantBlock s = .next
      { s.completed with
        dqByte := recompose (est Config.params (s.blockChannel 0)) (est Config.params (s.blockChannel 1))
          (est Config.params (s.blockChannel 2)) } := by
  have hrect := currentRect_of_blockUsable h
  obtain ⟨hbw, hbh, -⟩ := h
  rw [exec_eq_finish]
  simp only [commandResult, cmdDequantBlock, hrect, blockByte, readChannel_currentBlock hbw hbh]
  rfl

/-- Settles O20, from the number that three levels recompose to. -/
theorem dequantBlockRecoversByte : Obligations.DequantBlockRecoversByte :=
  ⟨rfl, fun _ => ⟨fun h => ⟨_, exec_dequantBlock_of_blockUsable h, rfl, recompose_toNat _ _ _⟩,
    fun _ he => exec_of_currentRect_error he (by simp)⟩⟩

/-- The estimate of a channel that shows one value in every pixel of the current block (41_color_codec R168). -/
theorem est_blockChannel_of_uniform {s : State} (hbw : s.blockW.toNat ≠ 0) (hbh : s.blockH.toNat ≠ 0)
    {c : Nat} {v : Byte} (h : ∀ px py, s.inCurrentBlock px py → s.loadByte .fb (fbAddr s.frameW.toNat px py c) = v) :
    est Config.params (s.blockChannel c) = v.toNat := by
  have hne : s.blockChannel c ≠ [] := by
    simpa [State.blockChannel, hbw] using ⟨0, Nat.pos_of_ne_zero hbh⟩
  refine est_of_forall_eq _ hne fun x hx => ?_
  simp only [State.blockChannel, List.mem_flatMap, List.mem_map, List.mem_range] at hx
  obtain ⟨dy, hdy, dx, hdx, rfl⟩ := hx
  rw [h _ _ ⟨Nat.le_add_right _ _, by rw [Nat.succ_mul]; omega, Nat.le_add_right _ _, by rw [Nat.succ_mul]; omega⟩]

/-- Settles O21: each channel's estimate is the channel of the byte's color, and decoding inverts encoding. -/
theorem noiselessBlockDecodes : Obligations.NoiselessBlockDecodes := by
  intro s b h hpixels
  rw [exec_dequantBlock_of_blockUsable h]
  obtain ⟨hbw, hbh, -⟩ := h
  have hest (c : Nat) (hc : c < 3) : est Config.params (s.blockChannel c) = (rgbChannel (encodeColor b) c).toNat :=
    est_blockChannel_of_uniform hbw hbh fun px py hp => hpixels px py c hp hc
  have hbyte : recompose (est Config.params (s.blockChannel 0)) (est Config.params (s.blockChannel 1))
      (est Config.params (s.blockChannel 2)) = b := by
    rw [hest 0 (by decide), hest 1 (by decide), hest 2 (by decide)]
    exact decodeColor_encodeColor b
  rw [hbyte]

end Sys2Proof.Machine
end

section
/-! The commands of 42_frame_geometry: the grid's checks (R180), the traversal in row-major order (R182 to R187) and the blank
frame (R188). -/

namespace Sys2Proof.Machine

/-! ### The grid -/

/-- The checks of `GridCompute()` on the registers themselves, with the default pixel limit (42_frame_geometry R180). -/
theorem gridCompute_eq_ite (s : State) : gridCompute Config.params s =
    if s.blockW = 0 ∨ s.blockH = 0 then .error .blockDimZero
    else if s.frameW = 0 ∨ s.frameH = 0 then .error .frameDimZero
    else if 2073600 < s.frameW.toNat * s.frameH.toNat then .error .frameTooLarge
    else .ok ⟨s.dimCols, s.dimRows, s.dimN, (s.dimN : Int) - 8 - 64⟩ := by
  simp only [gridCompute, toNat_eq_zero_iff]
  rfl

/-- The commands that compute the grid do so first, and fail as it does with nothing written (60_exceptions R310). -/
theorem exec_of_gridCompute_error {s : State} {e : CmdError} (h : gridCompute Config.params s = .error e) {i : Instr}
    (hi : i ∈ [Instr.gridSetup, .envBuild, .envParse, .frameEncode, .frameDecode]) :
    exec i s = .next (s.failed e.code e.detail) := by
  have hresult : commandResult Config.params i s = .raise s e := by
    obtain rfl | rfl | rfl | rfl | rfl :
      i = .gridSetup ∨ i = .envBuild ∨ i = .envParse ∨ i = .frameEncode ∨ i = .frameDecode := by simpa using hi
    · simp only [commandResult, cmdGridSetup, h]
    · simp only [commandResult, cmdEnvBuild, h]
    · simp only [commandResult, cmdEnvParse, h]
    · simp only [commandResult, cmdFrameEncode, h]
    · simp only [commandResult, cmdFrameDecode, h]
  rw [exec_eq_finish, hresult, finish_raise]

/-- Settles O8, check by check. -/
theorem gridComputeChecks : Obligations.GridComputeChecks := by
  refine fun s => ⟨fun i hi => ⟨fun h => ?_, fun hbw hbh h => ?_, fun hbw hbh hw hh h => ?_⟩,
    gridCompute_of_dimsUsable⟩
  · exact exec_of_gridCompute_error (e := .blockDimZero) (by rw [gridCompute_eq_ite, if_pos h]) hi
  · exact exec_of_gridCompute_error (e := .frameDimZero)
      (by rw [gridCompute_eq_ite, if_neg (not_or.2 ⟨hbw, hbh⟩), if_pos h]) hi
  · exact exec_of_gridCompute_error (e := .frameTooLarge)
      (by rw [gridCompute_eq_ite, if_neg (not_or.2 ⟨hbw, hbh⟩), if_neg (not_or.2 ⟨hw, hh⟩), if_pos h]) hi

/-! ### Starting a traversal -/

/-- `TravSet(0)` stands at block (0, 0), or at the end position of an empty grid (42_frame_geometry R183). -/
theorem travSet_zero (s : State) :
    s.travSet 0 = { s with travIdx := 0, travX := 0, travY := if s.gridN = 0 then s.gridRows else 0 } := by
  by_cases h : s.gridN = 0
  · simp [State.travSet, h]
  · simp [State.travSet, Nat.pos_iff_ne_zero, toNat_eq_zero_iff]

theorem travSet_travIdx_toNat {s : State} {i : Nat} (hi : i ≤ s.gridN.toNat) : (s.travSet i).travIdx.toNat = i := by
  rw [travSet_travIdx, BitVec.toNat_ofNat, Nat.mod_eq_of_lt (hi.trans_lt s.gridN.isLt)]

/-- GRID_SETUP whose checks pass: the computed grid committed, the traversal at index 0 (42_frame_geometry R184). -/
theorem exec_gridSetup_of_grid {s : State} {g : Grid} (hg : gridCompute Config.params s = .ok g) :
    exec .gridSetup s = .next ((s.commitGrid g).travSet 0).completed := by
  rw [exec_eq_finish]
  simp only [commandResult, cmdGridSetup, hg, finish_ok, applyStores_nil]

/-- The grid of usable dimensions and the registers that commit it: nothing is lost in their widths, since `N` is at most
the pixel limit (42_frame_geometry R180; log 13). -/
theorem exists_grid_of_dimsUsable {s : State} (h : s.dimsUsable) :
    ∃ g, gridCompute Config.params s = .ok g ∧ (s.commitGrid g).GridOk ∧
      (s.commitGrid g).gridCols.toNat = s.dimCols ∧ (s.commitGrid g).gridRows.toNat = s.dimRows ∧
      (s.commitGrid g).gridN.toNat = s.dimN ∧ (s.commitGrid g).capacity.toInt = (s.dimN : Int) - 72 :=
  have hg := gridCompute_of_dimsUsable h
  ⟨_, hg, gridOk_commitGrid (by decide) hg, commitGrid_toNat (by decide) hg⟩

/-- Settles O9: the registers hold the grid's exact numbers, and the end position is that of an empty grid. -/
theorem gridSetupCommitsGrid : Obligations.GridSetupCommitsGrid := by
  refine ⟨rfl, fun s => ⟨fun h => ?_, fun e he => exec_of_gridCompute_error he (by simp)⟩⟩
  obtain ⟨g, hg, -, hcols, hrows, hn, hcap⟩ := exists_grid_of_dimsUsable h
  have hzero : (s.commitGrid g).gridN = 0 ↔ s.dimN = 0 := by rw [← toNat_eq_zero_iff, hn]
  refine ⟨_, exec_gridSetup_of_grid hg, ?_, hcols, hrows, hn, hcap, ?_⟩
  · rw [travSet_zero, if_congr hzero rfl rfl]
    rfl
  · rw [← Nat.le_zero, ← hn]
    exact decide_eq_true_iff

theorem exec_travReset_eq (s : State) : exec .travReset s = .next (s.travSet 0).completed := by
  rw [exec_eq_finish]
  simp only [commandResult, cmdTravReset, finish_ok, applyStores_nil]

/-- Settles O10, from where `TravSet(0)` stands. -/
theorem travResetRestarts : Obligations.TravResetRestarts := by
  refine ⟨rfl, fun s => ?_⟩
  rw [exec_travReset_eq, travSet_zero]
  rfl

/-! ### Walking the grid -/

theorem exec_travNext_of_lt {s : State} (h : s.travIdx.toNat < s.gridN.toNat) :
    exec .travNext s = .next (s.travSet (s.travIdx.toNat + 1)).completed := by
  rw [exec_eq_finish]
  simp only [commandResult, cmdTravNext, if_pos h, finish_ok, applyStores_nil]

theorem exec_travNext_of_end {s : State} (h : s.gridN.toNat ≤ s.travIdx.toNat) :
    exec .travNext s = .next s.completed := by
  rw [exec_eq_finish]
  simp only [commandResult, cmdTravNext, if_neg h.not_gt, finish_ok, applyStores_nil]

theorem ofNat_toNat_succ {n : Nat} (x : BitVec n) : BitVec.ofNat n (x.toNat + 1) = x + 1 := by
  rw [BitVec.ofNat_add, BitVec.ofNat_toNat, BitVec.setWidth_eq]
  rfl

/-- Settles O11, inside the grid and at its end. -/
theorem travNextAdvances : Obligations.TravNextAdvances := by
  refine ⟨rfl, fun s => ⟨fun h => ?_, exec_travNext_of_end⟩⟩
  rw [exec_travNext_of_lt h, State.travSet, ofNat_toNat_succ]
  rfl

/-- In a grid with columns, `TravSet(i)` stands at `(i mod cols, i div cols)`, the end position `(0, rows)` at index
`cols·rows` included (42_frame_geometry R182, R183). -/
theorem travSet_eq_div_mod {s : State} (hgrid : s.GridOk) (hcols : 0 < s.gridCols.toNat) {i : Nat}
    (hi : i ≤ s.gridN.toNat) : s.travSet i =
      { s with
        travIdx := BitVec.ofNat 32 i
        travX   := BitVec.ofNat 16 (i % s.gridCols.toNat)
        travY   := BitVec.ofNat 16 (i / s.gridCols.toNat) } := by
  obtain hlt | rfl := Nat.lt_or_eq_of_le hi
  · simp only [State.travSet, if_pos hlt]
  · obtain ⟨hn, -⟩ := hgrid
    simp only [State.travSet, lt_irrefl, if_false]
    rw [hn, Nat.mul_mod_right, Nat.mul_div_cancel_left _ hcols, BitVec.ofNat_toNat, BitVec.setWidth_eq]
    rfl

/-- Settles O12: one index on from `Y·cols + X` is one column on, or the first column of the next row. -/
theorem travNextWalksRowMajor : Obligations.TravNextWalksRowMajor := by
  intro s hgrid htrav h
  obtain ⟨hidx, hx⟩ : s.travIdx.toNat = s.travY.toNat * s.gridCols.toNat + s.travX.toNat ∧
    s.travX.toNat < s.gridCols.toNat := by simpa only [State.TravOk, if_pos h] using htrav
  have hcols : 0 < s.gridCols.toNat := by omega
  rw [exec_travNext_of_lt h, travSet_eq_div_mod hgrid hcols (i := s.travIdx.toNat + 1) h, ofNat_toNat_succ]
  by_cases hlast : s.travX.toNat + 1 = s.gridCols.toNat
  · have hnext : s.travIdx.toNat + 1 = (s.travY.toNat + 1) * s.gridCols.toNat := by
      rw [Nat.succ_mul]
      omega
    rw [hnext, Nat.mul_mod_left, Nat.mul_div_cancel _ hcols, ofNat_toNat_succ, if_pos hlast, if_pos hlast]
    rfl
  · have hlt : s.travX.toNat + 1 < s.gridCols.toNat := by omega
    have hnext : s.travIdx.toNat + 1 = s.travX.toNat + 1 + s.gridCols.toNat * s.travY.toNat := by
      rw [Nat.mul_comm]
      omega
    rw [hnext, Nat.add_mul_mod_self_left, Nat.mod_eq_of_lt hlt, Nat.add_mul_div_left _ _ hcols, Nat.div_eq_of_lt hlt,
      Nat.zero_add, ofNat_toNat_succ, BitVec.ofNat_toNat, BitVec.setWidth_eq, if_neg hlast, if_neg hlast]
    rfl

/-- From index `i`, `k` TRAV_NEXT commands within the grid reach index `i + k` (42_frame_geometry R186). -/
theorem execTimes_travNext (s : State) (k i : Nat) (h : i + k ≤ s.gridN.toNat) :
    execTimes .travNext k (s.travSet i).completed = .next (s.travSet (i + k)).completed := by
  induction k generalizing i with
  | zero => rfl
  | succ k ih =>
    have hidx : (s.travSet i).completed.travIdx.toNat = i := travSet_travIdx_toNat (s := s) (by omega)
    have hlt : (s.travSet i).completed.travIdx.toNat < (s.travSet i).completed.gridN.toNat := by
      rw [hidx]
      exact (by omega : i < s.gridN.toNat)
    have hstep : exec .travNext (s.travSet i).completed = .next (s.travSet (i + 1)).completed := by
      rw [exec_travNext_of_lt hlt, hidx]
      rfl
    simp only [execTimes, hstep]
    rw [ih (i + 1) (by omega), Nat.add_right_comm, Nat.add_assoc]

/-- Inside the grid the position registers hold the column and row of the index (42_frame_geometry R182). -/
theorem travSet_position {s : State} (hgrid : s.GridOk) {i : Nat} (hi : i < s.gridN.toNat) :
    (s.travSet i).travX.toNat = i % s.gridCols.toNat ∧ (s.travSet i).travY.toNat = i / s.gridCols.toNat := by
  have htrav := travOk_travSet hgrid hi.le
  rw [State.TravOk, travSet_travIdx_toNat hi.le, travSet_gridN, if_pos hi, travSet_gridCols] at htrav
  obtain ⟨hidx, hx⟩ := htrav
  obtain ⟨hdiv, hmod⟩ : i / s.gridCols.toNat = (s.travSet i).travY.toNat ∧
      i % s.gridCols.toNat = (s.travSet i).travX.toNat :=
    (Nat.div_mod_unique (by omega)).2 ⟨by rw [Nat.mul_comm]; omega, hx⟩
  exact ⟨hmod.symm, hdiv.symm⟩

theorem travDone_travSet {s : State} {i : Nat} (hi : i ≤ s.gridN.toNat) :
    (s.travSet i).travDone = decide (s.gridN.toNat ≤ i) := by
  rw [State.travDone, travSet_travIdx_toNat hi, travSet_gridN]

/-- Settles O13: after `k` TRAV_NEXT commands the traversal stands at index `k` of the committed grid. -/
theorem traversalVisitsEveryBlock : Obligations.TraversalVisitsEveryBlock := by
  intro s h
  obtain ⟨g, hg, hgrid, hcols, hrows, hn, -⟩ := exists_grid_of_dimsUsable h
  refine ⟨_, exec_gridSetup_of_grid hg, fun k hk => ?_⟩
  rw [← hn] at hk ⊢
  have hwalk := execTimes_travNext (s.commitGrid g) k 0 (by omega)
  rw [Nat.zero_add] at hwalk
  refine ⟨_, hwalk, travSet_travIdx_toNat hk, fun hlt => ?_, fun hend => ?_⟩
  · obtain ⟨hx, hy⟩ := travSet_position hgrid hlt
    rw [hcols] at hx hy
    exact ⟨hx, hy, (travDone_travSet hk).trans (decide_eq_false hlt.not_ge)⟩
  · have hx : ((s.commitGrid g).travSet k).travX = 0 := if_neg hend.not_lt
    have hy : ((s.commitGrid g).travSet k).travY = (s.commitGrid g).gridRows := if_neg hend.not_lt
    exact ⟨congrArg BitVec.toNat hx, (congrArg BitVec.toNat hy).trans hrows,
      (travDone_travSet hk).trans (decide_eq_true hend.ge)⟩

/-! ### The blank frame -/

/-- `Blank()` covers the frame area and nothing else (20_memory R85). -/
theorem blankStores_covers {s : State} (hw : s.frameW.toNat ≠ 0) (hh : s.frameH.toNat ≠ 0) (sp : Space) (a : Nat) :
    (∃ st ∈ blankStores s, st.covers sp a = true) ↔ sp = .fb ∧ a < 3 * (s.frameW.toNat * s.frameH.toNat) := by
  constructor
  · rintro ⟨st, hst, hc⟩
    exact fillRect_covers_lt (Nat.sub_one_lt hw) (Nat.sub_one_lt hh) hst hc
  · rintro ⟨rfl, ha⟩
    exact blankStores_cover ha

/-- What a byte reads after `Blank()`: in the frame area the background's channel of its place in the pixel. -/
theorem loadByte_applyStores_blankStores {s : State} (hw : s.frameW.toNat ≠ 0) (hh : s.frameH.toNat ≠ 0) (sp : Space)
    (a : Nat) : (s.applyStores (blankStores s)).loadByte sp a =
      if sp = .fb ∧ a < 3 * (s.frameW.toNat * s.frameH.toNat) then rgbChannel s.bgRgb (a % 3) else s.loadByte sp a := by
  have hcovers := blankStores_covers hw hh sp a
  split
  case isTrue h =>
    exact State.loadByte_applyStores_of_covered _ _ _ _ _ (fun st hst hc => fillRect_byte _ _ _ _ _ _ hst hc)
      (.inl (hcovers.2 h))
  case isFalse h =>
    exact State.loadByte_applyStores_of_not_covered _ _ _ _ fun st hst =>
      Bool.eq_false_iff.2 fun hst' => h (hcovers.1 ⟨st, hst, hst'⟩)

/-- FB_CLEAR's checks on the registers themselves, with the default pixel limit (42_frame_geometry R188). -/
theorem cmdFbClear_eq_ite (s : State) : cmdFbClear Config.params s =
    if s.frameW = 0 ∨ s.frameH = 0 then .raise s .frameDimZero
    else if 2073600 < s.frameW.toNat * s.frameH.toNat then .raise s .frameTooLarge
    else .ok s (blankStores s) := by
  simp only [cmdFbClear, toNat_eq_zero_iff]
  rfl

/-- Settles O14: the two checks, then the blank frame. -/
theorem fbClearFillsFrame : Obligations.FbClearFillsFrame := by
  refine ⟨rfl, fun s => ?_⟩
  rw [exec_eq_finish, commandResult, cmdFbClear_eq_ite]
  refine ⟨fun h => ?_, fun hw hh h => ?_, fun hw hh h => ?_⟩
  · rw [if_pos h, finish_raise]
    rfl
  · rw [if_neg (not_or.2 ⟨hw, hh⟩), if_pos h, finish_raise]
    rfl
  · rw [if_neg (not_or.2 ⟨hw, hh⟩), if_neg h.not_gt, finish_ok]
    refine ⟨_, rfl, congrArg State.completed (applyStores_eq_of_fb fun st hst => fillRect_space hst), fun sp a => ?_⟩
    rw [← complete_none_eq, complete_loadByte]
    exact loadByte_applyStores_blankStores (mt (toNat_eq_zero_iff _).1 hw) (mt (toNat_eq_zero_iff _).1 hh) sp a

end Sys2Proof.Machine
end

section
/-! The field GF(256) of 43_fec_codec R210 and the powers of `α` (R211). A product of bytes is a sum of doublings (the
loop of `gf_mul`), so each law needs to be seen only at 1, under doubling and under XOR. -/

namespace Sys2Proof.Machine

open Config (params)

/-! ### The doubling and the product add over XOR -/

/-- Doubling is a shift, reduced where bit 7 was set. -/
theorem gfDouble_eq (P : Params) (a : Byte) :
    gfDouble P a = if a.getLsbD 7 then (a <<< 1) ^^^ P.rsPrim.setWidth 8 else a <<< 1 := by
  have hbit : ((a.setWidth 16 : Half) <<< 1).getLsbD 8 = a.getLsbD 7 := by simp
  have hlow : ((a.setWidth 16 : Half) <<< 1).setWidth 8 = a <<< 1 := by
    ext i hi
    cases i <;> simp
  simp only [gfDouble, hbit]
  split
  · rw [BitVec.setWidth_xor, hlow]
  · exact hlow

/-- A byte added once for each of two conditions is added to the sum where exactly one of them holds. -/
theorem ite_xor_distrib (x y : Bool) (u v w : Byte) : (if x ^^ y then (u ^^^ v) ^^^ w else u ^^^ v) =
    (if x then u ^^^ w else u) ^^^ (if y then v ^^^ w else v) := by
  have hcancel : (u ^^^ w) ^^^ (v ^^^ w) = u ^^^ v :=
    calc (u ^^^ w) ^^^ (v ^^^ w) = (u ^^^ v) ^^^ (w ^^^ w) := by ac_rfl
      _ = u ^^^ v := by rw [BitVec.xor_self, BitVec.xor_zero]
  cases x <;> cases y
  · rfl
  · exact BitVec.xor_assoc u v w
  · show (u ^^^ v) ^^^ w = (u ^^^ w) ^^^ v
    ac_rfl
  · exact hcancel.symm

theorem gfDouble_xor (P : Params) (a b : Byte) : gfDouble P (a ^^^ b) = gfDouble P a ^^^ gfDouble P b := by
  have hshift : (a ^^^ b) <<< 1 = (a <<< 1) ^^^ (b <<< 1) := BitVec.shiftLeft_xor_distrib _ _ _
  simp only [gfDouble_eq, BitVec.getLsbD_xor, hshift, ite_xor_distrib]

theorem gfMulLoop_xor_left (P : Params) (k : Nat) (a a' b acc acc' : Byte) :
    gfMulLoop P k (a ^^^ a') b (acc ^^^ acc') = gfMulLoop P k a b acc ^^^ gfMulLoop P k a' b acc' := by
  induction k generalizing a a' b acc acc' with
  | zero => rfl
  | succ k ih =>
    simp only [gfMulLoop, gfDouble_xor, ← ih]
    split
    · congr 1
      ac_rfl
    · rfl

theorem gfMulLoop_xor_right (P : Params) (k : Nat) (a b b' acc acc' : Byte) :
    gfMulLoop P k a (b ^^^ b') (acc ^^^ acc') = gfMulLoop P k a b acc ^^^ gfMulLoop P k a b' acc' := by
  induction k generalizing a b b' acc acc' with
  | zero => rfl
  | succ k ih => simp only [gfMulLoop, BitVec.ushiftRight_xor_distrib, BitVec.getLsbD_xor, ite_xor_distrib, ih]

theorem gfMul_xor_left (P : Params) (a a' b : Byte) : gfMul P (a ^^^ a') b = gfMul P a b ^^^ gfMul P a' b :=
  gfMulLoop_xor_left P 8 a a' b 0 0

theorem gfMul_xor_right (P : Params) (a b b' : Byte) : gfMul P a (b ^^^ b') = gfMul P a b ^^^ gfMul P a b' :=
  gfMulLoop_xor_right P 8 a b b' 0 0

/-! ### Bytes from 1 by doubling and XOR -/

theorem byte_eq_xor_bits : ∀ a : Byte, a =
    ((List.range 8).map fun k => if a.getLsbD k then 1#8 <<< k else 0).foldr (· ^^^ ·) 0 := by decide

/-- A property that XOR keeps holds of every byte if it holds of the eight single bits. -/
theorem byte_induction_bits {motive : Byte → Prop} (bit : ∀ k < 8, motive (1#8 <<< k))
    (xor : ∀ a b, motive a → motive b → motive (a ^^^ b)) (a : Byte) : motive a := by
  have hzero : motive 0 := xor _ _ (bit 0 (by omega)) (bit 0 (by omega))
  rw [byte_eq_xor_bits a]
  refine List.foldrRecOn _ _ hzero fun b hb c hc => xor _ _ ?_ hb
  obtain ⟨k, hk, rfl⟩ := List.mem_map.1 hc
  split
  · exact bit k (List.mem_range.1 hk)
  · exact hzero

/-- A property that doubling and XOR keep holds of every byte if it holds of 1. -/
theorem byte_induction {motive : Byte → Prop} (one : motive 1) (double : ∀ a, motive a → motive (gfDouble params a))
    (xor : ∀ a b, motive a → motive b → motive (a ^^^ b)) (a : Byte) : motive a := by
  have hshift : ∀ k < 7, gfDouble params (1#8 <<< k) = 1#8 <<< (k + 1) := by decide
  refine byte_induction_bits (fun k hk => ?_) xor a
  induction k with
  | zero => exact one
  | succ k ih => exact hshift k (by omega) ▸ double _ (ih (by omega))

/-! ### The laws of the product -/

theorem gfMul_one (a : Byte) : gfMul params a 1 = a := by
  induction a using byte_induction_bits with
  | bit k hk =>
    have hbits : ∀ k < 8, gfMul params (1#8 <<< k) 1 = 1#8 <<< k := by decide
    exact hbits k hk
  | xor a b ha hb => rw [gfMul_xor_left, ha, hb]

/-- Doubling one factor doubles the product: the one law that depends on `RS_PRIM`, seen at the single bits. -/
theorem gfMul_double_right (a b : Byte) : gfMul params a (gfDouble params b) = gfDouble params (gfMul params a b) := by
  have hbits : ∀ j < 8, ∀ k < 8, gfMul params (1#8 <<< j) (gfDouble params (1#8 <<< k)) =
      gfDouble params (gfMul params (1#8 <<< j) (1#8 <<< k)) := by decide
  induction a using byte_induction_bits with
  | bit j hj =>
    induction b using byte_induction_bits with
    | bit k hk => exact hbits j hj k hk
    | xor b b' hb hb' => rw [gfDouble_xor, gfMul_xor_right, gfMul_xor_right, gfDouble_xor, hb, hb']
  | xor a a' ha ha' => rw [gfMul_xor_left, gfMul_xor_left, gfDouble_xor, ha, ha']

theorem gfMul_double_left (a b : Byte) : gfMul params (gfDouble params a) b = gfDouble params (gfMul params a b) := by
  induction b using byte_induction with
  | one => rw [gfMul_one, gfMul_one]
  | double b hb => rw [gfMul_double_right, gfMul_double_right, hb]
  | xor b b' hb hb' => rw [gfMul_xor_right, gfMul_xor_right, gfDouble_xor, hb, hb']

theorem one_gfMul (a : Byte) : gfMul params 1 a = a := by
  induction a using byte_induction with
  | one => exact gfMul_one 1
  | double a ha => rw [gfMul_double_right, ha]
  | xor a b ha hb => rw [gfMul_xor_right, ha, hb]

theorem gfMul_comm (a b : Byte) : gfMul params a b = gfMul params b a := by
  induction b using byte_induction with
  | one => rw [gfMul_one, one_gfMul]
  | double b hb => rw [gfMul_double_right, gfMul_double_left, hb]
  | xor b b' hb hb' => rw [gfMul_xor_right, gfMul_xor_left, hb, hb']

theorem gfMul_assoc (a b c : Byte) :
    gfMul params (gfMul params a b) c = gfMul params a (gfMul params b c) := by
  induction c using byte_induction with
  | one => rw [gfMul_one, gfMul_one]
  | double c hc => rw [gfMul_double_right, gfMul_double_right, gfMul_double_right, hc]
  | xor c c' hc hc' => rw [gfMul_xor_right, gfMul_xor_right, gfMul_xor_right, hc, hc']

theorem gfMul_zero (a : Byte) : gfMul params a 0 = 0 := by
  have h := gfMul_xor_right params a 0 0
  rwa [BitVec.xor_self, BitVec.xor_self] at h

/-! ### Bytes read as the elements of a ring -/

/-- A reading of bytes as elements of a ring: its sum is XOR and its product `gf_mul` (43_fec_codec R210). -/
structure GfReading {F : Type} [CommRing F] (φ : Byte → F) : Prop where
  injective : Function.Injective φ
  map_xor (a b : Byte) : φ (a ^^^ b) = φ a + φ b
  map_mul (a b : Byte) : φ (gfMul params a b) = φ a * φ b
  map_one : φ 1 = 1

/-- A byte as an element of GF(256). -/
@[ext] structure Gf where
  byte : Byte

/-- The ring of the bytes with XOR and `gf_mul`. -/
@[reducible] def gfCommRing : CommRing Gf :=
  letI : Zero Gf := ⟨⟨0⟩⟩
  letI : Add Gf := ⟨fun a b => ⟨a.byte ^^^ b.byte⟩⟩
  letI : Neg Gf := ⟨id⟩
  letI : Mul Gf := ⟨fun a b => ⟨gfMul params a.byte b.byte⟩⟩
  { one := ⟨1⟩
    nsmul := nsmulRec
    zsmul := zsmulRec
    add_assoc := fun _ _ _ => Gf.ext (BitVec.xor_assoc _ _ _)
    zero_add := fun _ => Gf.ext BitVec.zero_xor
    add_zero := fun _ => Gf.ext BitVec.xor_zero
    neg_add_cancel := fun _ => Gf.ext BitVec.xor_self
    add_comm := fun _ _ => Gf.ext (BitVec.xor_comm _ _)
    left_distrib := fun _ _ _ => Gf.ext (gfMul_xor_right _ _ _ _)
    right_distrib := fun _ _ _ => Gf.ext (gfMul_xor_left _ _ _ _)
    zero_mul := fun a => congrArg Gf.mk ((gfMul_comm 0 a.byte).trans (gfMul_zero a.byte))
    mul_zero := fun a => congrArg Gf.mk (gfMul_zero a.byte)
    mul_assoc := fun _ _ _ => Gf.ext (gfMul_assoc _ _ _)
    one_mul := fun _ => Gf.ext (one_gfMul _)
    mul_one := fun _ => Gf.ext (gfMul_one _)
    mul_comm := fun _ _ => Gf.ext (gfMul_comm _ _) }

theorem gfReading_mk : @GfReading Gf gfCommRing Gf.mk :=
  let := gfCommRing
  { injective := fun _ _ h => congrArg Gf.byte h, map_xor := fun _ _ => rfl, map_mul := fun _ _ => rfl,
    map_one := rfl }

section
variable {F : Type} [CommRing F] {φ : Byte → F} (hφ : GfReading φ)
include hφ

theorem GfReading.map_zero : φ 0 = 0 :=
  left_eq_add.1 (hφ.map_xor 0 0)

theorem GfReading.map_eq_zero_iff {a : Byte} : φ a = 0 ↔ a = 0 :=
  hφ.map_zero ▸ hφ.injective.eq_iff

theorem GfReading.nontrivial : Nontrivial F :=
  ⟨φ 1, φ 0, fun h => absurd (hφ.injective h) (by decide)⟩

/-- Every element is its own negative. -/
theorem GfReading.charP : CharP F 2 :=
  have htwo : (2 : F) = 0 := by
    rw [← one_add_one_eq_two, ← hφ.map_one, ← hφ.map_xor]
    exact hφ.map_zero
  have := hφ.nontrivial
  CharTwo.of_one_ne_zero_of_two_eq_zero one_ne_zero htwo

theorem GfReading.map_gfPow (x : Byte) (i : Nat) : φ (gfPow params x i) = φ x ^ i := by
  induction i with
  | zero => rw [gfPow, hφ.map_one, pow_zero]
  | succ i ih => rw [gfPow, hφ.map_mul, ih, pow_succ]

theorem GfReading.map_alphaPow (i : Nat) : φ (alphaPow params i) = φ 2 ^ i := hφ.map_gfPow 2 i

/-- `α` has order 255, since its power 255 is 1 and its powers 85, 51 and 15 are not (43_fec_codec R211). -/
theorem GfReading.orderOf_alpha : orderOf (φ 2) = 255 := by
  have hpow (i : Nat) : φ 2 ^ i = 1 ↔ alphaPow params i = 1 := by
    rw [← hφ.map_alphaPow, ← hφ.map_one, hφ.injective.eq_iff]
  refine orderOf_eq_of_pow_and_pow_div_prime (by omega) ((hpow 255).2 (by decide +kernel)) fun p hp hdvd => ?_
  have hprimes : p ∣ 3 * (5 * 17) := hdvd
  rw [hp.dvd_mul, hp.dvd_mul, Nat.prime_dvd_prime_iff_eq hp (by norm_num), Nat.prime_dvd_prime_iff_eq hp (by norm_num),
    Nat.prime_dvd_prime_iff_eq hp (by norm_num)] at hprimes
  rw [Ne, hpow]
  obtain rfl | rfl | rfl := hprimes <;> decide +kernel

theorem GfReading.alpha_isUnit : IsUnit (φ 2) :=
  (orderOf_pos_iff.1 (hφ.orderOf_alpha ▸ Nat.zero_lt_succ _)).isUnit

end

/-! ### The powers of `α` -/

theorem alphaPow_mod (i : Nat) : alphaPow params (i % 255) = alphaPow params i := by
  let := gfCommRing
  apply gfReading_mk.injective
  rw [gfReading_mk.map_alphaPow, gfReading_mk.map_alphaPow, ← gfReading_mk.orderOf_alpha, pow_mod_orderOf]

theorem alphaPow_inj {i j : Nat} (hi : i < 255) (hj : j < 255) (h : alphaPow params i = alphaPow params j) : i = j := by
  let := gfCommRing
  rw [← gfReading_mk.injective.eq_iff, gfReading_mk.map_alphaPow, gfReading_mk.map_alphaPow] at h
  rw [← gfReading_mk.orderOf_alpha] at hi hj
  exact pow_injOn_Iio_orderOf hi hj h

theorem alphaPow_add (i j : Nat) : alphaPow params (i + j) = gfMul params (alphaPow params i) (alphaPow params j) := by
  let := gfCommRing
  apply gfReading_mk.injective
  rw [gfReading_mk.map_mul]
  simp only [gfReading_mk.map_alphaPow, pow_add]

theorem alphaPow_ne_zero (i : Nat) : alphaPow params i ≠ 0 := by
  let := gfCommRing
  have := gfReading_mk.nontrivial
  rw [Ne, ← gfReading_mk.map_eq_zero_iff, gfReading_mk.map_alphaPow]
  exact (gfReading_mk.alpha_isUnit.pow i).ne_zero

/-- The 255 powers are distinct and not 0, so they are all the non-zero bytes. -/
theorem exists_alphaPow_eq {x : Byte} (hx : x ≠ 0) : ∃ i < 255, alphaPow params i = x := by
  have hsub : (Finset.range 255).image (alphaPow params) ⊆ Finset.univ.erase 0 := fun y hy => by
    obtain ⟨i, -, rfl⟩ := Finset.mem_image.1 hy
    exact Finset.mem_erase.2 ⟨alphaPow_ne_zero i, Finset.mem_univ _⟩
  have hcard : (Finset.univ.erase (0 : Byte)).card ≤ ((Finset.range 255).image (alphaPow params)).card := by
    rw [Finset.card_image_of_injOn fun i hi j hj => alphaPow_inj (Finset.mem_range.1 hi) (Finset.mem_range.1 hj),
      Finset.card_range, Finset.card_erase_of_mem (Finset.mem_univ _), Finset.card_univ,
      Fintype.card_congr BitVec.equivFin.toEquiv, Fintype.card_fin]
    decide
  have hmem : x ∈ (Finset.range 255).image (alphaPow params) := by
    rw [Finset.eq_of_subset_of_card_le hsub hcard]
    exact Finset.mem_erase.2 ⟨hx, Finset.mem_univ _⟩
  simpa using hmem

theorem exists_gfMul_eq_one {x : Byte} (hx : x ≠ 0) : ∃ y, gfMul params x y = 1 := by
  obtain ⟨i, hi, rfl⟩ := exists_alphaPow_eq hx
  refine ⟨alphaPow params (255 - i), ?_⟩
  rw [← alphaPow_add, Nat.add_sub_cancel' hi.le, ← alphaPow_mod]
  rfl

/-- The search for the inverse succeeds. -/
theorem gfMul_gfInv {x : Byte} (hx : x ≠ 0) : gfMul params x (gfInv params x) = 1 := by
  obtain ⟨y, hy⟩ := exists_gfMul_eq_one hx
  have hfound : (List.range 256).findIdx (fun b => gfMul params x (BitVec.ofNat 8 b) == 1) < (List.range 256).length :=
    List.findIdx_lt_length_of_exists ⟨y.toNat, List.mem_range.2 y.isLt, by simpa using hy⟩
  have h := List.findIdx_getElem (w := hfound)
  rwa [List.getElem_range, beq_iff_eq] at h

/-- Settles O23, law by law. -/
theorem gfMulIsFieldProduct : Obligations.GfMulIsFieldProduct :=
  ⟨gfMul_comm, gfMul_assoc, gfMul_xor_right params, gfMul_one, fun _ => gfMul_gfInv⟩

/-- Settles O24: injectivity is the order of `α`, and 255 distinct powers leave out no non-zero byte. -/
theorem alphaHasOrder255 : Obligations.AlphaHasOrder255 :=
  ⟨rfl, fun _ => rfl, fun i => (alphaPow_mod i).symm, fun _ _ => alphaPow_inj,
    fun _ => ⟨exists_alphaPow_eq, fun ⟨i, _, hi⟩ => hi ▸ alphaPow_ne_zero i⟩, rfl⟩

/-- The bytes can be read as the elements of a field. -/
theorem exists_gfReading : ∃ (F : Type) (_ : Field F) (φ : Byte → F), GfReading φ :=
  let := gfCommRing
  have hfield : IsField Gf :=
    { exists_pair_ne := gfReading_mk.nontrivial.exists_pair_ne
      mul_comm := mul_comm
      mul_inv_cancel := fun {x} hx => by
        obtain ⟨y, hy⟩ := exists_gfMul_eq_one (mt gfReading_mk.map_eq_zero_iff.2 hx)
        exact ⟨⟨y⟩, congrArg Gf.mk hy⟩ }
  ⟨Gf, hfield.toField, Gf.mk, gfReading_mk⟩

end Sys2Proof.Machine
end

section
/-! Encoding (43_fec_codec R213) for every parameter set: the division of R213 reads only the leading bytes, so
bytes added behind them are added to its remainder. -/

namespace Sys2Proof.Machine

variable (P : Params)

theorem addOnto_zipWith_xor (xs ys zs : List Byte) :
    addOnto xs (List.zipWith (· ^^^ ·) ys zs) = List.zipWith (· ^^^ ·) (addOnto xs ys) zs := by
  induction xs generalizing ys zs with
  | nil => cases ys <;> rfl
  | cons x xs ih =>
    cases ys with
    | nil => rfl
    | cons y ys =>
      cases zs with
      | nil => rfl
      | cons z zs =>
        simp only [addOnto, List.zipWith_cons_cons, ih]
        rw [BitVec.xor_assoc, BitVec.xor_comm z, ← BitVec.xor_assoc]

/-- Bytes added behind the `k` leading ones do not change what the division loop subtracts. -/
theorem divideLoop_zipWith_xor (g : List Byte) (k : Nat) (buf zs : List Byte) (hlen : buf.length = k + zs.length) :
    divideLoop P g k (List.zipWith (· ^^^ ·) buf (List.replicate k 0 ++ zs)) =
      List.zipWith (· ^^^ ·) (divideLoop P g k buf) zs := by
  induction k generalizing buf with
  | zero => simp [divideLoop]
  | succ k ih =>
    cases buf with
    | nil => simp at hlen; omega
    | cons c buf =>
      have hbuf : buf.length = k + zs.length := by simp at hlen; omega
      have hlead : c ^^^ 0 = c := BitVec.xor_zero
      simp only [List.replicate_succ, List.cons_append, List.zipWith_cons_cons, divideLoop, hlead]
      split
      · exact ih buf hbuf
      · rw [addOnto_zipWith_xor]
        exact ih _ (by rw [addOnto_length, hbuf])

theorem zipWith_xor_replicate {xs : List Byte} {n : Nat} (hlen : xs.length = n) :
    List.zipWith (· ^^^ ·) xs (List.replicate n 0) = xs := by
  subst hlen
  induction xs with
  | nil => rfl
  | cons x xs ih =>
    have hx : x ^^^ 0 = x := BitVec.xor_zero
    simp only [List.length_cons, List.replicate_succ, List.zipWith_cons_cons, ih, hx]

theorem zipWith_xor_self (xs : List Byte) : List.zipWith (· ^^^ ·) xs xs = List.replicate xs.length 0 := by
  simp [List.zipWith_self]

/-- An encoded message is the padded message with the remainder added. -/
theorem rsEncode_eq_zipWith (m : List Byte) (p : Nat) :
    rsEncode P m p = List.zipWith (· ^^^ ·) (m ++ List.replicate p 0)
      (List.replicate m.length 0 ++ remainder P p (m ++ List.replicate p 0)) := by
  have hlen : (remainder P p (m ++ List.replicate p 0)).length = p := remainder_length P p _ (by simp)
  rw [rsEncode, List.zipWith_append (by simp), zipWith_xor_replicate rfl, List.zipWith_comm_of_comm BitVec.xor_comm,
    zipWith_xor_replicate hlen]

/-- The remainder in the place of the parity bytes leaves the remainder 0 (43_fec_codec R214). -/
theorem remainder_rsEncode (m : List Byte) (p : Nat) : remainder P p (rsEncode P m p) = List.replicate p 0 := by
  have hlen : (remainder P p (m ++ List.replicate p 0)).length = p := remainder_length P p _ (by simp)
  have hself : divideLoop P (genPoly P p).tail m.length (m ++ List.replicate p 0) =
      remainder P p (m ++ List.replicate p 0) := by
    rw [remainder, List.length_append, List.length_replicate, Nat.add_sub_cancel]
  rw [remainder, rsEncode_length, Nat.add_sub_cancel, rsEncode_eq_zipWith,
    divideLoop_zipWith_xor _ _ _ _ _ (by rw [hlen, List.length_append, List.length_replicate]), hself,
    zipWith_xor_self, hlen]

theorem isCodeword_rsEncode (m : List Byte) (p : Nat) : isCodeword P p (rsEncode P m p) = true := by
  simp [isCodeword, remainder_rsEncode]

/-- Settles O26: the word the division leaves has remainder 0. -/
theorem rsEncodeGivesCodeword : Obligations.RsEncodeGivesCodeword :=
  fun P m p => ⟨rsEncode_length P m p, rsEncode_take P m p, isCodeword_rsEncode P m p⟩

/-- A codeword decodes as it is, at any length (43_fec_codec R216). -/
theorem rsDecode_of_isCodeword {r : List Byte} {p : Nat} (h : isCodeword P p r = true) :
    rsDecode P r p = some (r.take (r.length - p), 0) := by
  rw [rsDecode, if_pos h]

theorem rsDecode_rsEncode (m : List Byte) (p : Nat) : rsDecode P (rsEncode P m p) p = some (m, 0) := by
  rw [rsDecode_of_isCodeword P (isCodeword_rsEncode P m p), rsEncode_length, Nat.add_sub_cancel, rsEncode_take]

/-- Settles O30: the encoder's word is a codeword that begins with the message. -/
theorem rsRoundTrip : Obligations.RsRoundTrip := rsDecode_rsEncode

end Sys2Proof.Machine
end

section
/-! Byte lists as polynomials over a field (00_scope R14): the generator (43_fec_codec R212), the division of R213
and the two descriptions of a codeword, divisibility by `g_p` and the vanishing of the syndromes (R214). -/

namespace Sys2Proof.Machine

open Config (params)
open Polynomial

theorem genPoly_eq_cons (P : Params) (p : Nat) : genPoly P p = 1 :: (genPoly P p).tail := by
  induction p with
  | zero => rfl
  | succ p ih => rw [genPoly, ih]; rfl

variable {F : Type} [Field F] {φ : Byte → F}

/-- The polynomial of a byte list, its first byte the highest-degree coefficient (00_scope R14). -/
noncomputable def polyOf (φ : Byte → F) : List Byte → F[X]
  | [] => 0
  | b :: c => C (φ b) * X ^ c.length + polyOf φ c

theorem polyOf_append (a b : List Byte) : polyOf φ (a ++ b) = polyOf φ a * X ^ b.length + polyOf φ b := by
  induction a with
  | nil => simp [polyOf]
  | cons x a ih =>
    simp only [List.cons_append, polyOf, ih, List.length_append, pow_add]
    ring

theorem polyOf_degree_lt (c : List Byte) : (polyOf φ c).degree < c.length := by
  induction c with
  | nil => simp [polyOf]
  | cons b c ih =>
    have hlt : ((c.length : ℕ) : WithBot ℕ) < ((b :: c).length : ℕ) :=
      Nat.cast_lt.2 (Nat.lt_succ_self _)
    refine (degree_add_le _ _).trans_lt (max_lt ?_ (ih.trans hlt))
    exact (degree_C_mul_X_pow_le _ _).trans_lt hlt

section
variable (hφ : GfReading φ)
include hφ

/-- XOR is also the difference. -/
theorem GfReading.map_xor_eq_sub (a b : Byte) : φ (a ^^^ b) = φ a - φ b := by
  have := hφ.charP
  rw [hφ.map_xor, CharTwo.sub_eq_add]

/-- The value of a list at a byte is that of its polynomial. -/
theorem GfReading.map_polyEval (x : Byte) (c : List Byte) : φ (polyEval params x c) = (polyOf φ c).eval (φ x) := by
  induction c using List.reverseRecOn with
  | nil => exact hφ.map_zero.trans eval_zero.symm
  | append_singleton c b ih =>
    have hstep : polyEval params x (c ++ [b]) = gfMul params (polyEval params x c) x ^^^ b := by simp [polyEval]
    rw [hstep, hφ.map_xor, hφ.map_mul, ih, polyOf_append]
    simp [polyOf]

theorem GfReading.polyOf_zipWith_xor {a b : List Byte} (h : a.length = b.length) :
    polyOf φ (List.zipWith (· ^^^ ·) a b) = polyOf φ a + polyOf φ b := by
  induction a generalizing b with
  | nil => cases b <;> simp_all [polyOf]
  | cons x a ih =>
    cases b with
    | nil => simp at h
    | cons y b =>
      have hlen : a.length = b.length := by simpa using h
      simp only [List.zipWith_cons_cons, polyOf, ih hlen, hφ.map_xor, List.length_zipWith, hlen, min_self, C_add]
      ring

theorem GfReading.polyOf_map_gfMul (x : Byte) (c : List Byte) :
    polyOf φ (c.map (gfMul params x)) = C (φ x) * polyOf φ c := by
  induction c with
  | nil => simp [polyOf]
  | cons b c ih =>
    simp only [List.map_cons, polyOf, ih, hφ.map_mul, List.length_map, C_mul]
    ring

theorem GfReading.polyOf_cons_zero (c : List Byte) : polyOf φ (0 :: c) = polyOf φ c := by
  rw [polyOf, hφ.map_zero, C_0, zero_mul, zero_add]

theorem GfReading.polyOf_replicate_zero (n : Nat) : polyOf φ (List.replicate n 0) = 0 := by
  induction n with
  | zero => rfl
  | succ n ih => rw [List.replicate_succ, hφ.polyOf_cons_zero, ih]

/-- Only a list of zeros has the polynomial 0. -/
theorem GfReading.polyOf_eq_zero_iff {c : List Byte} : polyOf φ c = 0 ↔ ∀ b ∈ c, b = 0 := by
  induction c with
  | nil => simp [polyOf]
  | cons b c ih =>
    constructor
    · intro h
      have hcoeff := congrArg (coeff · c.length) h
      simp only [polyOf, coeff_add, coeff_C_mul, coeff_X_pow_self, mul_one,
        coeff_eq_zero_of_degree_lt (polyOf_degree_lt c), add_zero, coeff_zero, hφ.map_eq_zero_iff] at hcoeff
      subst hcoeff
      rw [hφ.polyOf_cons_zero] at h
      simpa using ih.1 h
    · intro h
      obtain ⟨rfl, hc⟩ := List.forall_mem_cons.1 h
      rw [hφ.polyOf_cons_zero]
      exact ih.2 hc

theorem GfReading.polyOf_addOnto {xs ys : List Byte} (h : xs.length ≤ ys.length) :
    polyOf φ (addOnto xs ys) = polyOf φ ys - polyOf φ xs * X ^ (ys.length - xs.length) := by
  induction xs generalizing ys with
  | nil => cases ys <;> simp [addOnto, polyOf]
  | cons x xs ih =>
    cases ys with
    | nil => simp at h
    | cons y ys =>
      have hlen : xs.length ≤ ys.length := by simpa using h
      have hpow : (X : F[X]) ^ ys.length = X ^ xs.length * X ^ (ys.length - xs.length) := by
        rw [← pow_add, Nat.add_sub_cancel' hlen]
      simp only [addOnto, polyOf, ih hlen, hφ.map_xor_eq_sub, addOnto_length, List.length_cons, Nat.succ_sub_succ,
        C_sub, hpow]
      ring

/-! ### The generator -/

/-- The generator is the product of its root factors (43_fec_codec R212). -/
theorem GfReading.polyOf_genPoly (p : Nat) :
    polyOf φ (genPoly params p) = ∏ j ∈ Finset.range p, (X - C (φ (alphaPow params j))) := by
  have := hφ.charP
  induction p with
  | zero => rw [genPoly, polyOf, polyOf, hφ.map_one, C_1, one_mul, add_zero, Finset.prod_range_zero]; rfl
  | succ p ih =>
    have hfcr : params.rsFcr + p = p := Nat.zero_add p
    rw [genPoly, hfcr, hφ.polyOf_zipWith_xor (by simp), polyOf_append, hφ.polyOf_cons_zero, hφ.polyOf_cons_zero,
      hφ.polyOf_map_gfMul, Finset.prod_range_succ, ← ih, CharTwo.sub_eq_add, mul_add, mul_comm (C _)]
    simp [polyOf]

theorem GfReading.genPoly_degree (p : Nat) : (polyOf φ (genPoly params p)).degree = p := by
  rw [hφ.polyOf_genPoly, degree_prod]
  simp

theorem GfReading.eval_genPoly_eq_zero {p j : Nat} (h : j < p) :
    (polyOf φ (genPoly params p)).eval (φ (alphaPow params j)) = 0 := by
  rw [hφ.polyOf_genPoly, eval_prod]
  exact Finset.prod_eq_zero (Finset.mem_range.2 h) (by simp)

/-! ### Codewords -/

/-- The division loop subtracts multiples of the generator only (43_fec_codec R213). -/
theorem GfReading.dvd_polyOf_sub_divideLoop {p : Nat} {g : List Byte} (hg : g.length = p) (k : Nat) (buf : List Byte)
    (hlen : buf.length = k + p) :
    polyOf φ (1 :: g) ∣ polyOf φ buf - polyOf φ (divideLoop params g k buf) := by
  induction k generalizing buf with
  | zero => cases buf <;> simp [divideLoop]
  | succ k ih =>
    cases buf with
    | nil => simp at hlen; omega
    | cons c buf =>
      have hbuf : buf.length = k + p := by simp at hlen; omega
      rw [divideLoop]
      split
      case isTrue hc => exact hc ▸ hφ.polyOf_cons_zero buf ▸ ih buf hbuf
      case isFalse hc =>
        have hcomm : (fun g => gfMul params g c) = gfMul params c := funext fun g => gfMul_comm g c
        have hshift : buf.length - (g.map (gfMul params c)).length = k := by
          rw [List.length_map, hg, hbuf, Nat.add_sub_cancel]
        have hdvd := ih (addOnto (g.map (gfMul params c)) buf) (by rw [addOnto_length, hbuf])
        rw [hφ.polyOf_addOnto (by simp [hg, hbuf]), hφ.polyOf_map_gfMul, hshift] at hdvd
        rw [hcomm]
        convert hdvd.add (Dvd.intro_left (C (φ c) * X ^ k) rfl) using 1
        simp only [polyOf, hφ.map_one, C_1, one_mul, hg, hbuf, pow_add]
        ring

/-- Codewords are the multiples of the generator (43_fec_codec R214). -/
theorem GfReading.isCodeword_iff_dvd {p : Nat} {c : List Byte} (h : p ≤ c.length) :
    isCodeword params p c = true ↔ polyOf φ (genPoly params p) ∣ polyOf φ c := by
  have hrem : polyOf φ (genPoly params p) ∣ polyOf φ c - polyOf φ (remainder params p c) := by
    rw [genPoly_eq_cons params p]
    exact hφ.dvd_polyOf_sub_divideLoop (by simp [genPoly_length]) _ c (Nat.sub_add_cancel h).symm
  have hdeg : (polyOf φ (remainder params p c)).degree < (polyOf φ (genPoly params p)).degree := by
    rw [hφ.genPoly_degree]
    simpa [remainder_length _ _ _ h] using polyOf_degree_lt (φ := φ) (remainder params p c)
  have hzero : isCodeword params p c = true ↔ polyOf φ (remainder params p c) = 0 := by
    rw [hφ.polyOf_eq_zero_iff, isCodeword, List.all_eq_true]
    simp only [beq_iff_eq]
  rw [hzero, dvd_iff_dvd_of_dvd_sub hrem]
  exact ⟨fun h0 => h0 ▸ dvd_zero _, fun hdvd => eq_zero_of_dvd_of_degree_lt hdvd hdeg⟩

/-- Codewords are the lists that vanish at the generator's roots, which are distinct (43_fec_codec R214). -/
theorem GfReading.isCodeword_iff_eval {p : Nat} {c : List Byte} (hp : p ≤ 255) (h : p ≤ c.length) :
    isCodeword params p c = true ↔ ∀ j < p, (polyOf φ c).eval (φ (alphaPow params j)) = 0 := by
  rw [hφ.isCodeword_iff_dvd h]
  constructor
  · intro hdvd j hj
    exact eval_eq_zero_of_dvd_of_eval_eq_zero hdvd (hφ.eval_genPoly_eq_zero hj)
  · intro hroots
    rw [hφ.polyOf_genPoly]
    refine Finset.prod_dvd_of_coprime (fun i hi j hj hij => ?_) fun j hj => ?_
    · have hne : φ (alphaPow params i) ≠ φ (alphaPow params j) := fun heq =>
        hij (alphaPow_inj (by simp at hi; omega) (by simp at hj; omega) (hφ.injective heq))
      exact isCoprime_X_sub_C_of_isUnit_sub (sub_ne_zero.2 hne).isUnit
    · exact dvd_iff_isRoot.2 (hroots j (Finset.mem_range.1 hj))

theorem GfReading.map_syndrome (c : List Byte) (j : Nat) :
    φ (syndrome params c j) = (polyOf φ c).eval (φ (alphaPow params j)) := by
  have hfcr : params.rsFcr + j = j := Nat.zero_add j
  rw [syndrome, hfcr, hφ.map_polyEval]

end

/-- Settles O25: the generator is the product of its root factors. -/
theorem generatorHasItsRoots : Obligations.GeneratorHasItsRoots := by
  obtain ⟨F, _, φ, hφ⟩ := exists_gfReading
  refine fun p => ⟨genPoly_length params p, by rw [genPoly_eq_cons]; rfl, fun j hj => ?_⟩
  rw [← hφ.map_eq_zero_iff, hφ.map_polyEval]
  exact hφ.eval_genPoly_eq_zero hj

/-- Settles O27: divisibility by distinct root factors is vanishing at the roots. -/
theorem codewordIffSyndromesZero : Obligations.CodewordIffSyndromesZero := by
  obtain ⟨F, _, φ, hφ⟩ := exists_gfReading
  intro p c hp hlen
  rw [hφ.isCodeword_iff_eval hp hlen]
  simp only [← hφ.map_syndrome, hφ.map_eq_zero_iff]

end Sys2Proof.Machine
end

section
/-! The minimum distance (43_fec_codec R215): two words differ by errors at locators, the powers of `α` that the
degrees give, and a Vandermonde system with distinct locators has no solution but 0. -/

namespace Sys2Proof.Machine

open Config (params)
open Polynomial

/-! ### The Hamming distance -/

/-- The positions where two lists of one length differ. -/
def diffPositions (a b : List Byte) : Finset Nat := (Finset.range a.length).filter fun i => a.getD i 0 ≠ b.getD i 0

theorem mem_diffPositions {a b : List Byte} {i : Nat} :
    i ∈ diffPositions a b ↔ i < a.length ∧ a.getD i 0 ≠ b.getD i 0 := by
  simp [diffPositions]

theorem hamming_eq_card {a b : List Byte} (h : a.length = b.length) : hamming a b = (diffPositions a b).card := by
  rw [diffPositions, Finset.card_filter]
  induction a generalizing b with
  | nil => simp [hamming]
  | cons x a ih =>
    cases b with
    | nil => simp at h
    | cons y b =>
      rw [List.length_cons, Finset.sum_range_succ', hamming, ih (by simpa using h), Nat.add_comm]
      simp [ite_not]

theorem eq_of_diffPositions_eq_empty {a b : List Byte} (h : a.length = b.length) (hd : diffPositions a b = ∅) :
    a = b := by
  refine List.ext_getElem h fun i hi hi' => ?_
  have hmem : i ∉ diffPositions a b := hd ▸ Finset.notMem_empty i
  simpa [mem_diffPositions, hi, hi'] using hmem

theorem hamming_self (a : List Byte) : hamming a a = 0 := by
  simp [hamming_eq_card rfl, diffPositions]

theorem hamming_le_length (a b : List Byte) : hamming a b ≤ a.length := by
  induction a generalizing b with
  | nil => simp [hamming]
  | cons x a ih =>
    cases b with
    | nil => simp [hamming]
    | cons y b =>
      have := ih b
      rw [hamming, List.length_cons]
      split <;> omega

theorem hamming_append_left (c a b : List Byte) : hamming (c ++ a) (c ++ b) = hamming a b := by
  induction c with
  | nil => rfl
  | cons x c ih => simp [hamming, ih]

/-! ### A Vandermonde system -/

section
variable {F : Type} [Field F]

/-- A combination of the powers of distinct elements that vanishes for as many exponents as it has terms is 0. -/
theorem eq_zero_of_sum_mul_pow_eq_zero {ι : Type} {s : Finset ι} {e x : ι → F} (hx : Set.InjOn x s) {p : Nat}
    (hp : s.card ≤ p) (h : ∀ j < p, ∑ i ∈ s, e i * x i ^ j = 0) {i : ι} (hi : i ∈ s) : e i = 0 := by
  let v : Fin s.card → ι := fun k => s.equivFin.symm k
  have hsum (f : ι → F) : ∑ k, f (v k) = ∑ i ∈ s, f i := by
    rw [← Finset.sum_coe_sort s, ← Equiv.sum_comp s.equivFin.symm]
  have hinj : Function.Injective fun k => x (v k) := fun k l hkl =>
    s.equivFin.symm.injective (Subtype.ext (hx (s.equivFin.symm k).2 (s.equivFin.symm l).2 hkl))
  have hzero := Matrix.eq_zero_of_forall_pow_sum_mul_pow_eq_zero (v := fun k => e (v k)) hinj fun j =>
    (hsum fun i => e i * x i ^ (j : ℕ)).trans (h j (j.2.trans_le hp))
  have := congrFun hzero (s.equivFin ⟨i, hi⟩)
  simpa [v] using this

variable {φ : Byte → F}

theorem eval_polyOf (c : List Byte) (x : F) :
    (polyOf φ c).eval x = ∑ i ∈ Finset.range c.length, φ (c.getD i 0) * x ^ (c.length - 1 - i) := by
  induction c with
  | nil => simp [polyOf]
  | cons b c ih =>
    rw [List.length_cons, Finset.sum_range_succ', polyOf, eval_add, ih, add_comm]
    congr 1
    · refine Finset.sum_congr rfl fun i hi => ?_
      have hexp : c.length + 1 - 1 - (i + 1) = c.length - 1 - i := by omega
      rw [hexp, List.getD_cons_succ]
    · simp

end

/-! ### Two words at the generator's roots -/

theorem locator_inj {n i j : Nat} (hn : n ≤ 255) (hi : i < n) (hj : j < n)
    (h : locator params n i = locator params n j) : i = j := by
  have := alphaPow_inj (by omega) (by omega) h
  omega

section
variable {F : Type} [Field F] {φ : Byte → F} (hφ : GfReading φ)
include hφ

/-- At a power of `α` two words differ by the sum of their differences, each times its locator's power. -/
theorem GfReading.eval_sub_eval {a b : List Byte} (h : a.length = b.length) (j : Nat) :
    (polyOf φ a).eval (φ (alphaPow params j)) - (polyOf φ b).eval (φ (alphaPow params j)) =
      ∑ i ∈ diffPositions a b, (φ (a.getD i 0) - φ (b.getD i 0)) * φ (locator params a.length i) ^ j := by
  rw [eval_polyOf, eval_polyOf, ← h, ← Finset.sum_sub_distrib, diffPositions, Finset.sum_filter]
  refine Finset.sum_congr rfl fun i _ => ?_
  split
  case isTrue hne => rw [locator, hφ.map_alphaPow, hφ.map_alphaPow, pow_right_comm, sub_mul]
  case isFalse heq => rw [not_not.1 heq, sub_self]

theorem GfReading.eval_eq_zero_of_isCodeword {p : Nat} {c : List Byte} (h : p ≤ c.length)
    (hc : isCodeword params p c = true) {j : Nat} (hj : j < p) : (polyOf φ c).eval (φ (alphaPow params j)) = 0 :=
  eval_eq_zero_of_dvd_of_eval_eq_zero ((hφ.isCodeword_iff_dvd h).1 hc) (hφ.eval_genPoly_eq_zero hj)

end

/-- Two codewords that differ in at most `p` positions, of distinct locators, are equal. -/
theorem eq_of_isCodeword {p : Nat} {a b : List Byte} (hlen : a.length = b.length) (hp : p ≤ a.length)
    (ha : isCodeword params p a = true) (hb : isCodeword params p b = true) (hd : hamming a b ≤ p)
    (hinj : Set.InjOn (locator params a.length) (diffPositions a b)) : a = b := by
  obtain ⟨F, _, φ, hφ⟩ := exists_gfReading
  refine eq_of_diffPositions_eq_empty hlen (Finset.eq_empty_of_forall_notMem fun i hi => ?_)
  have hzero := eq_zero_of_sum_mul_pow_eq_zero (e := fun i => φ (a.getD i 0) - φ (b.getD i 0))
    (x := fun i => φ (locator params a.length i)) (hφ.injective.comp_injOn hinj) (hamming_eq_card hlen ▸ hd)
    (fun j hj => ?_) hi
  · exact (mem_diffPositions.1 hi).2 (hφ.injective (sub_eq_zero.1 hzero))
  · rw [← hφ.eval_sub_eval hlen, hφ.eval_eq_zero_of_isCodeword hp ha hj,
      hφ.eval_eq_zero_of_isCodeword (hlen ▸ hp) hb hj, sub_self]

/-- Up to 255 bytes the locators are distinct, and codewords differ in more than `p` positions (43_fec_codec R215). -/
theorem lt_hamming_of_isCodeword {p : Nat} {a b : List Byte} (hlen : a.length = b.length) (hp : p ≤ a.length)
    (hn : a.length ≤ 255) (ha : isCodeword params p a = true) (hb : isCodeword params p b = true) (hne : a ≠ b) :
    p < hamming a b := by
  by_contra hd
  refine hne (eq_of_isCodeword hlen hp ha hb (not_lt.1 hd) fun i hi j hj => locator_inj hn ?_ ?_)
  · exact (mem_diffPositions.1 hi).1
  · exact (mem_diffPositions.1 hj).1

/-! ### Words that attain the distance -/

theorem isCodeword_replicate_zero {p n : Nat} (h : p ≤ n) : isCodeword params p (List.replicate n 0) = true := by
  obtain ⟨F, _, φ, hφ⟩ := exists_gfReading
  rw [hφ.isCodeword_iff_dvd (by simpa using h), hφ.polyOf_replicate_zero]
  exact dvd_zero _

theorem isCodeword_replicate_append_genPoly (p k : Nat) :
    isCodeword params p (List.replicate k 0 ++ genPoly params p) = true := by
  obtain ⟨F, _, φ, hφ⟩ := exists_gfReading
  rw [hφ.isCodeword_iff_dvd (by simp [genPoly_length]; omega), polyOf_append, hφ.polyOf_replicate_zero]
  simp

/-- `k` zeros, then two ones with `m` zeros between them. -/
def twoOnes (k m : Nat) : List Byte := List.replicate k 0 ++ (1 :: (List.replicate m 0 ++ [1]))

theorem twoOnes_length (k m : Nat) : (twoOnes k m).length = k + (m + 2) := by simp [twoOnes]

theorem GfReading.eval_twoOnes {F : Type} [Field F] {φ : Byte → F} (hφ : GfReading φ) (k m : Nat) (x : F) :
    (polyOf φ (twoOnes k m)).eval x = x ^ (m + 1) + 1 := by
  rw [twoOnes, polyOf_append, hφ.polyOf_replicate_zero, polyOf, polyOf_append, hφ.polyOf_replicate_zero, polyOf, polyOf,
    hφ.map_one]
  simp

/-- Two ones 255 places apart vanish at every power of `α`, whose order is 255 (43_fec_codec R215). -/
theorem isCodeword_twoOnes {p : Nat} (hp : p ≤ 255) (k : Nat) : isCodeword params p (twoOnes k 254) = true := by
  obtain ⟨F, _, φ, hφ⟩ := exists_gfReading
  have := hφ.charP
  rw [hφ.isCodeword_iff_eval hp (by rw [twoOnes_length]; omega)]
  intro j _
  have horder : φ 2 ^ (254 + 1) = 1 := orderOf_dvd_iff_pow_eq_one.1 hφ.orderOf_alpha.dvd
  rw [hφ.eval_twoOnes, hφ.map_alphaPow, pow_right_comm, horder, one_pow, CharTwo.add_self_eq_zero]

theorem hamming_replicate_zero_twoOnes (k m : Nat) : hamming (List.replicate (k + (m + 2)) 0) (twoOnes k m) = 2 := by
  have hzeros : List.replicate (k + (m + 2)) (0 : Byte) =
      List.replicate k 0 ++ (0 :: (List.replicate m 0 ++ [0])) := by
    rw [List.replicate_add, List.replicate_succ, List.replicate_succ']
  rw [hzeros, twoOnes, hamming_append_left, hamming, hamming_append_left]
  rfl

/-- The generator behind zeros differs from 0 in `p + 1` positions: it has no more, and is a codeword. -/
theorem hamming_replicate_zero_genPoly {p n : Nat} (hpn : p < n) (hn : n ≤ 255) :
    hamming (List.replicate n 0) (List.replicate (n - (p + 1)) 0 ++ genPoly params p) = p + 1 := by
  have hsplit : List.replicate n (0 : Byte) = List.replicate (n - (p + 1)) 0 ++ List.replicate (p + 1) 0 := by
    rw [List.replicate_append_replicate, Nat.sub_add_cancel hpn]
  refine le_antisymm ?_ ?_
  · rw [hsplit, hamming_append_left]
    exact (hamming_le_length _ _).trans_eq List.length_replicate
  · refine lt_hamming_of_isCodeword ?_ ?_ ?_ (isCodeword_replicate_zero hpn.le)
      (isCodeword_replicate_append_genPoly p (n - (p + 1))) fun heq => ?_
    · rw [List.length_append, List.length_replicate, List.length_replicate, genPoly_length, Nat.sub_add_cancel hpn]
    · rw [List.length_replicate]
      exact hpn.le
    · rwa [List.length_replicate]
    · rw [hsplit, List.append_cancel_left_eq, genPoly_eq_cons, List.replicate_succ, List.cons.injEq] at heq
      exact absurd heq.1 (by decide)

/-- Settles O28. Up to 255 bytes the generator itself attains the distance; beyond, two ones 255 places apart do. -/
theorem codeMinimumDistance : Obligations.CodeMinimumDistance := by
  refine ⟨fun p a b hlen hp hn ha hb hne => lt_hamming_of_isCodeword hlen hp hn ha hb hne, fun p n hpn hn => ?_,
    fun p a b hlen hp1 hp hn ha hb hne => ?_, fun p n hp1 hp hn => ?_⟩
  · exact ⟨_, _, List.length_replicate, by simp [genPoly_length, Nat.sub_add_cancel hpn],
      isCodeword_replicate_zero hpn.le, isCodeword_replicate_append_genPoly p (n - (p + 1)),
      hamming_replicate_zero_genPoly hpn hn⟩
  · by_contra hd
    have hone : (diffPositions a b).card ≤ 1 := by
      rw [← hamming_eq_card hlen]
      omega
    exact hne (eq_of_isCodeword hlen (by omega) ha hb (by omega) fun i hi j hj _ =>
      Finset.card_le_one.1 hone i hi j hj)
  · obtain ⟨k, rfl⟩ := Nat.exists_eq_add_of_le' hn
    exact ⟨_, _, List.length_replicate, twoOnes_length k 254, isCodeword_replicate_zero (by omega),
      isCodeword_twoOnes hp k, hamming_replicate_zero_twoOnes k 254⟩

end Sys2Proof.Machine
end

section
/-! The elimination of the decoder (43_fec_codec R216; log 10): `kernelVec` answers a vector orthogonal to every row,
and not 0 where there are fewer rows than entries. -/

namespace Sys2Proof.Machine

open Config (params)

theorem gfMul_ne_zero {a b : Byte} (ha : a ≠ 0) (hb : b ≠ 0) : gfMul params a b ≠ 0 := by
  obtain ⟨F, _, φ, hφ⟩ := exists_gfReading
  rw [Ne, ← hφ.map_eq_zero_iff, hφ.map_mul, mul_eq_zero, hφ.map_eq_zero_iff, hφ.map_eq_zero_iff]
  exact not_or.2 ⟨ha, hb⟩

/-! ### Products of lists -/

section
variable {F : Type} [Field F] {φ : Byte → F} (hφ : GfReading φ)
include hφ

theorem GfReading.map_gfDot (as bs : List Byte) : φ (gfDot params as bs) =
    ∑ i ∈ Finset.range as.length, φ (as.getD i 0) * φ (bs.getD i 0) := by
  induction as generalizing bs with
  | nil => cases bs <;> exact hφ.map_zero
  | cons a as ih =>
    cases bs with
    | nil =>
      refine hφ.map_zero.trans (Finset.sum_eq_zero fun i _ => ?_).symm
      rw [List.getD_nil, hφ.map_zero, mul_zero]
    | cons b bs =>
      rw [gfDot, hφ.map_xor, hφ.map_mul, ih, List.length_cons, Finset.sum_range_succ', add_comm]
      simp

theorem GfReading.map_gfDot_map {ι : Type} (f g : ι → Byte) (is : List ι) :
    φ (gfDot params (is.map f) (is.map g)) = (is.map fun i => φ (f i) * φ (g i)).sum := by
  induction is with
  | nil => exact hφ.map_zero
  | cons i is ih => simp only [List.map_cons, gfDot, hφ.map_xor, hφ.map_mul, ih, List.sum_cons]

end

theorem gfDot_map_right (x : Byte) (as bs : List Byte) :
    gfDot params as (bs.map (gfMul params x)) = gfMul params x (gfDot params as bs) := by
  induction as generalizing bs with
  | nil => cases bs <;> exact (gfMul_zero x).symm
  | cons a as ih =>
    cases bs with
    | nil => exact (gfMul_zero x).symm
    | cons b bs =>
      rw [List.map_cons, gfDot, gfDot, ih, gfMul_xor_right, ← gfMul_assoc, ← gfMul_assoc, gfMul_comm a]

theorem gfDot_map_left (x : Byte) (as bs : List Byte) :
    gfDot params (as.map (gfMul params x)) bs = gfMul params x (gfDot params as bs) := by
  induction as generalizing bs with
  | nil => cases bs <;> exact (gfMul_zero x).symm
  | cons a as ih =>
    cases bs with
    | nil => exact (gfMul_zero x).symm
    | cons b bs => rw [List.map_cons, gfDot, gfDot, ih, gfMul_xor_right, ← gfMul_assoc]

theorem gfDot_xor_left {as as' : List Byte} (h : as.length = as'.length) (bs : List Byte) :
    gfDot params (List.zipWith (· ^^^ ·) as as') bs = gfDot params as bs ^^^ gfDot params as' bs := by
  induction as generalizing as' bs with
  | nil => cases as' <;> simp_all [gfDot]
  | cons a as ih =>
    cases as' with
    | nil => simp at h
    | cons a' as' =>
      cases bs with
      | nil => simp [gfDot]
      | cons b bs =>
        rw [List.zipWith_cons_cons, gfDot, gfDot, gfDot, ih (by simpa using h), gfMul_xor_left]
        ac_rfl

theorem gfDot_comm (as bs : List Byte) : gfDot params as bs = gfDot params bs as := by
  induction as generalizing bs with
  | nil => cases bs <;> rfl
  | cons a as ih =>
    cases bs with
    | nil => rfl
    | cons b bs => rw [gfDot, gfDot, ih, gfMul_comm]

theorem gfDot_append_singleton {as bs : List Byte} (h : as.length = bs.length) (a b : Byte) :
    gfDot params (as ++ [a]) (bs ++ [b]) = gfDot params as bs ^^^ gfMul params a b := by
  induction as generalizing bs with
  | nil =>
    cases bs with
    | nil => simp [gfDot]
    | cons => simp at h
  | cons x as ih =>
    cases bs with
    | nil => simp at h
    | cons y bs =>
      rw [List.cons_append, List.cons_append, gfDot, gfDot, ih (by simpa using h), BitVec.xor_assoc]

theorem gfDot_replicate_zero (as : List Byte) (n : Nat) : gfDot params as (List.replicate n 0) = 0 := by
  induction n generalizing as with
  | zero => cases as <;> rfl
  | succ n ih =>
    cases as with
    | nil => rfl
    | cons a as =>
      rw [List.replicate_succ, gfDot, ih, gfMul_zero]
      rfl

/-! ### Elimination -/

theorem pickPivot_eq_none {rows : List (List Byte)} (h : pickPivot rows = none) {r : List Byte} (hr : r ∈ rows) :
    r.headD 0 = 0 := by
  induction rows with
  | nil => simp at hr
  | cons q rows ih =>
    rw [pickPivot] at h
    split at h
    case isTrue hq =>
      obtain rfl | hr := List.mem_cons.1 hr
      · exact hq
      · exact ih (Option.map_eq_none_iff.1 h) hr
    case isFalse => cases h

theorem pickPivot_eq_some {rows others : List (List Byte)} {r : List Byte} (h : pickPivot rows = some (r, others)) :
    r.headD 0 ≠ 0 ∧ rows.Perm (r :: others) := by
  induction rows generalizing others with
  | nil => cases h
  | cons q rows ih =>
    rw [pickPivot] at h
    split at h
    case isTrue hq =>
      obtain ⟨⟨r', others'⟩, hpick, heq⟩ := Option.map_eq_some_iff.1 h
      cases heq
      obtain ⟨hhead, hperm⟩ := ih hpick
      exact ⟨hhead, (hperm.cons q).trans (List.Perm.swap _ _ _)⟩
    case isFalse hq =>
      cases h
      exact ⟨hq, .refl _⟩

theorem kernelVec_length (P : Params) (n : Nat) (rows : List (List Byte)) : (kernelVec P n rows).length = n := by
  induction n generalizing rows with
  | zero => rfl
  | succ n ih =>
    rw [kernelVec]
    split <;> simp [ih]

/-- Elimination keeps the product with a vector that the pivot's row is made orthogonal to. -/
theorem gfDot_eliminateRow {r q v : List Byte} (h : q.length = r.length) :
    gfDot params (eliminateRow params r q) v =
      gfMul params (r.headD 0) (gfDot params q.tail v) ^^^ gfMul params (q.headD 0) (gfDot params r.tail v) := by
  rw [eliminateRow, gfDot_xor_left (by simp [h]), gfDot_map_left, gfDot_map_left]

theorem gfDot_cons_right {as : List Byte} (h : as ≠ []) (b : Byte) (bs : List Byte) :
    gfDot params as (b :: bs) = gfMul params (as.headD 0) b ^^^ gfDot params as.tail bs := by
  cases as with
  | nil => exact absurd rfl h
  | cons a as => rfl

/-- The kernel vector is orthogonal to every row. -/
theorem gfDot_kernelVec {n : Nat} {rows : List (List Byte)} (hlen : ∀ q ∈ rows, q.length = n) {q : List Byte}
    (hq : q ∈ rows) : gfDot params q (kernelVec params n rows) = 0 := by
  induction n generalizing rows q with
  | zero =>
    obtain rfl := List.length_eq_zero_iff.1 (hlen q hq)
    rfl
  | succ n ih =>
    have hne {q : List Byte} (hq : q ∈ rows) : q ≠ [] := List.ne_nil_of_length_eq_add_one (hlen q hq)
    rw [kernelVec]
    split
    case h_1 hpick =>
      rw [gfDot_cons_right (hne hq), pickPivot_eq_none hpick hq, gfDot_replicate_zero, gfMul_one]
      rfl
    case h_2 r others hpick =>
      obtain ⟨hhead, hperm⟩ := pickPivot_eq_some hpick
      have hr : r ∈ rows := hperm.mem_iff.2 List.mem_cons_self
      have helim : ∀ q ∈ others, (eliminateRow params r q).length = n := fun q hq => by
        have := hlen q (hperm.mem_iff.2 (List.mem_cons_of_mem _ hq))
        have := hlen r hr
        simp_all [eliminateRow]
      dsimp only
      rw [gfDot_cons_right (hne hq), gfDot_map_right]
      obtain rfl | hq' := List.mem_cons.1 (hperm.mem_iff.1 hq)
      · exact BitVec.xor_self
      · have hker := ih (List.forall_mem_map.2 helim) (List.mem_map_of_mem hq')
        rw [gfDot_eliminateRow ((hlen q hq).trans (hlen r hr).symm), BitVec.xor_comm] at hker
        exact hker

/-- With fewer rows than entries the kernel vector is not 0. -/
theorem exists_ne_zero_mem_kernelVec {n : Nat} {rows : List (List Byte)} (h : rows.length < n) :
    ∃ b ∈ kernelVec params n rows, b ≠ 0 := by
  induction n generalizing rows with
  | zero => omega
  | succ n ih =>
    rw [kernelVec]
    split
    case h_1 => exact ⟨1, List.mem_cons_self, by decide⟩
    case h_2 r others hpick =>
      obtain ⟨hhead, hperm⟩ := pickPivot_eq_some hpick
      have hlen := hperm.length_eq
      obtain ⟨b, hb, hne⟩ := ih (rows := others.map (eliminateRow params r)) (by simp at hlen ⊢; omega)
      refine ⟨gfMul params (r.headD 0) b, List.mem_cons_of_mem _ (List.mem_map_of_mem hb), gfMul_ne_zero hhead hne⟩

end Sys2Proof.Machine
end

section
/-! The decoder (43_fec_codec R216; log 10): with a codeword within `p div 2`, the locator polynomial vanishes at
every error's locator, the error values are the differences, and the candidate is that codeword. -/

namespace Sys2Proof.Machine

open Config (params)
open Polynomial

/-! ### Lists and powers -/

theorem eval_polyOf_reverse {F : Type} [Field F] {φ : Byte → F} (c : List Byte) (x : F) :
    (polyOf φ c.reverse).eval x = ∑ i ∈ Finset.range c.length, φ (c.getD i 0) * x ^ i := by
  induction c with
  | nil => simp [polyOf]
  | cons b c ih =>
    have hshift : ∑ i ∈ Finset.range c.length, φ (c.getD i 0) * x ^ (i + 1) =
        (∑ i ∈ Finset.range c.length, φ (c.getD i 0) * x ^ i) * x := by
      rw [Finset.sum_mul]
      exact Finset.sum_congr rfl fun i _ => by ring
    rw [List.length_cons, Finset.sum_range_succ', List.reverse_cons, polyOf_append]
    simp only [List.getD_cons_succ, hshift, ← ih]
    simp [polyOf]

/-- The powers of some bytes for one exponent: a row of the system for the error values. -/
def powRow (xs : List Byte) (j : Nat) : List Byte := xs.map fun x => gfPow params x j

/-- A list orthogonal to as many power rows of distinct bytes as it has entries is 0. -/
theorem eq_zero_of_gfDot_powRow {xs zs : List Byte} (hx : xs.Nodup) (hlen : zs.length = xs.length)
    (h : ∀ j < xs.length, gfDot params (powRow xs j) zs = 0) {z : Byte} (hz : z ∈ zs) : z = 0 := by
  obtain ⟨F, _, φ, hφ⟩ := exists_gfReading
  obtain ⟨k, hk, rfl⟩ := List.mem_iff_getElem.1 hz
  have hinj : Set.InjOn (fun i => φ (xs.getD i 0)) (Finset.range xs.length) := fun i hi j hj hij => by
    have hi : i < xs.length := by simpa using hi
    have hj : j < xs.length := by simpa using hj
    have := hφ.injective hij
    simpa [hi, hj, hx.getElem_inj_iff] using this
  have hzero := eq_zero_of_sum_mul_pow_eq_zero (e := fun i => φ (zs.getD i 0)) hinj (Finset.card_range _).le
    (fun j hj => ?_) (Finset.mem_range.2 (hlen ▸ hk))
  · simpa [hk, hφ.map_eq_zero_iff] using hzero
  · have hrow := hφ.map_eq_zero_iff.2 (h j hj)
    rw [hφ.map_gfDot, powRow, List.length_map] at hrow
    rw [← hrow]
    refine Finset.sum_congr rfl fun i hi => ?_
    have hi : i < xs.length := Finset.mem_range.1 hi
    have hget : (xs.map fun x => gfPow params x j).getD i 0 = gfPow params (xs.getD i 0) j := by simp [hi]
    rw [hget, hφ.map_gfPow, mul_comm]

/-! ### The locator polynomial -/

theorem locatorPoly_length (P : Params) (t : Nat) (r : List Byte) : (locatorPoly P t r).length = t + 1 :=
  kernelVec_length P _ _

theorem exists_ne_zero_mem_locatorPoly (t : Nat) (r : List Byte) : ∃ b ∈ locatorPoly params t r, b ≠ 0 :=
  exists_ne_zero_mem_kernelVec (by simp)

/-- The locator polynomial is orthogonal to `t + 1` consecutive syndromes from each of the first `t` on. -/
theorem gfDot_locatorPoly {t m : Nat} (r : List Byte) (hm : m < t) :
    gfDot params ((List.range (t + 1)).map fun j => syndrome params r (m + j)) (locatorPoly params t r) = 0 := by
  have hrow : (List.range (t + 1)).map (fun j => syndrome params r (m + j)) ∈
      (List.range t).map fun i => (List.range (t + 1)).map fun j =>
        ((List.range (2 * t)).map (syndrome params r)).getD (i + j) 0 := by
    refine List.mem_map.2 ⟨m, List.mem_range.2 hm, List.map_congr_left fun j hj => ?_⟩
    have hj : j < t + 1 := List.mem_range.1 hj
    have hlt : m + j < 2 * t := by omega
    simp [hlt]
  exact gfDot_kernelVec (by simp) hrow

/-! ### The errors -/

/-- The byte by which two words differ at a position. -/
def errorAt (r c : List Byte) (i : Nat) : Byte := r.getD i 0 ^^^ c.getD i 0

theorem errorAt_eq_zero_iff {r c : List Byte} {i : Nat} : errorAt r c i = 0 ↔ r.getD i 0 = c.getD i 0 :=
  BitVec.xor_eq_zero_iff

theorem errorAt_of_notMem {r c : List Byte} (hlen : c.length = r.length) {i : Nat} (h : i ∉ diffPositions r c) :
    errorAt r c i = 0 := by
  rw [errorAt_eq_zero_iff]
  by_cases hi : i < r.length
  · exact not_not.1 fun hne => h (mem_diffPositions.2 ⟨hi, hne⟩)
  · rw [List.getD_eq_default _ _ (not_lt.1 hi), List.getD_eq_default _ _ (by omega)]

/-! ### The suspects -/

theorem mem_suspects {P : Params} {t : Nat} {r : List Byte} {i : Nat} : i ∈ suspects P t r ↔
    i < r.length ∧ polyEval P (locator P r.length i) (locatorPoly P t r).reverse = 0 := by
  simp [suspects]

theorem suspects_nodup (P : Params) (t : Nat) (r : List Byte) : (suspects P t r).Nodup :=
  List.nodup_range.filter _

/-- There are at most `t` suspects: the roots of a polynomial of degree at most `t`. -/
theorem suspects_length_le {t : Nat} {r : List Byte} (hn : r.length ≤ 255) : (suspects params t r).length ≤ t := by
  obtain ⟨F, _, φ, hφ⟩ := exists_gfReading
  classical
  have hne : polyOf φ (locatorPoly params t r).reverse ≠ 0 := fun h => by
    obtain ⟨b, hb, hb0⟩ := exists_ne_zero_mem_locatorPoly t r
    exact hb0 (hφ.polyOf_eq_zero_iff.1 h b (List.mem_reverse.2 hb))
  have hdeg : (polyOf φ (locatorPoly params t r).reverse).natDegree ≤ t := by
    have := (natDegree_lt_iff_degree_lt hne).2 (polyOf_degree_lt (φ := φ) (locatorPoly params t r).reverse)
    rw [List.length_reverse, locatorPoly_length] at this
    omega
  have hinj : Set.InjOn (fun i => φ (locator params r.length i)) (suspects params t r).toFinset := fun i hi j hj hij =>
    locator_inj hn (mem_suspects.1 (List.mem_toFinset.1 hi)).1 (mem_suspects.1 (List.mem_toFinset.1 hj)).1
      (hφ.injective hij)
  rw [← List.toFinset_card_of_nodup (suspects_nodup params t r), ← Finset.card_image_of_injOn hinj]
  refine (card_le_degree_of_subset_roots fun x hx => ?_).trans hdeg
  rw [Finset.mem_val] at hx
  obtain ⟨i, hi, rfl⟩ := Finset.mem_image.1 hx
  rw [mem_roots hne, IsRoot, ← hφ.map_polyEval, hφ.map_eq_zero_iff]
  exact (mem_suspects.1 (List.mem_toFinset.1 hi)).2

/-! ### The error values -/

theorem eq_of_zipWith_xor_eq_zero {xs ys : List Byte} (hlen : xs.length = ys.length)
    (h : ∀ z ∈ List.zipWith (· ^^^ ·) xs ys, z = 0) : xs = ys := by
  refine List.ext_getElem hlen fun i hi hi' => BitVec.xor_eq_zero_iff.1 (h _ (List.mem_iff_getElem.2 ⟨i, ?_, ?_⟩))
  · simp [hi, hi']
  · simp

/-- The system that `errorValues` solves: as many power rows as there are bytes, each with its product with `ds`. -/
def powSystem (xs ds : List Byte) : List (List Byte) :=
  (List.range xs.length).map fun j => powRow xs j ++ [gfDot params (powRow xs j) ds]

/-- With distinct bytes the kernel of the system is spanned by `ds` with a 1 behind it. -/
theorem kernelVec_powSystem {xs ds : List Byte} (hx : xs.Nodup) (hlen : ds.length = xs.length) :
    ∃ w ≠ 0, kernelVec params (xs.length + 1) (powSystem xs ds) = ds.map (gfMul params w) ++ [w] := by
  have horth {q : List Byte} := gfDot_kernelVec (n := xs.length + 1) (rows := powSystem xs ds) (q := q)
    (by simp [powSystem, powRow])
  obtain ⟨b, hb, hb0⟩ := exists_ne_zero_mem_kernelVec (n := xs.length + 1) (rows := powSystem xs ds)
    (by simp [powSystem])
  have hvlen := kernelVec_length params (xs.length + 1) (powSystem xs ds)
  obtain hnil | ⟨us, w, hv⟩ := List.eq_nil_or_concat' (kernelVec params (xs.length + 1) (powSystem xs ds))
  · simp [hnil] at hvlen
  rw [hv] at hb hvlen horth ⊢
  have hulen : us.length = xs.length := by simpa using hvlen
  have hus : us = ds.map (gfMul params w) := by
    have hlen' : us.length = (ds.map (gfMul params w)).length := by rw [List.length_map, hulen, hlen]
    refine eq_of_zipWith_xor_eq_zero hlen' fun z hz =>
      eq_zero_of_gfDot_powRow hx (by simp [hulen, hlen]) (fun j hj => ?_) hz
    have hrow := horth (List.mem_map_of_mem (List.mem_range.2 hj))
    rw [gfDot_append_singleton (by simp [powRow, hulen]), gfMul_comm] at hrow
    rw [gfDot_comm, gfDot_xor_left hlen', gfDot_comm, gfDot_comm (ds.map _), gfDot_map_right]
    exact hrow
  refine ⟨w, fun hw => hb0 ?_, by rw [hus]⟩
  subst hw
  rw [hus] at hb
  obtain hb | hb := List.mem_append.1 hb
  · obtain ⟨d, -, rfl⟩ := List.mem_map.1 hb
    rw [gfMul_comm, gfMul_zero]
  · exact List.mem_singleton.1 hb

/-! ### Adding errors -/

/-- Adding values at distinct positions changes each of them once. -/
theorem addErrors_getElem? (d : Nat → Byte) {is : List Nat} (hnodup : is.Nodup) (r : List Byte) (i : Nat) :
    (addErrors r is (is.map d))[i]? = if i ∈ is then r[i]?.map (· ^^^ d i) else r[i]? := by
  induction is generalizing r with
  | nil => simp [addErrors]
  | cons k is ih =>
    obtain ⟨hk, hnodup⟩ := List.nodup_cons.1 hnodup
    have hstep : addErrors r (k :: is) ((k :: is).map d) = addErrors (r.modify k (· ^^^ d k)) is (is.map d) := rfl
    rw [hstep, ih hnodup, List.getElem?_modify]
    by_cases hik : k = i
    · subst hik
      simp [hk]
    · have : i ∈ k :: is ↔ i ∈ is := by simp [Ne.symm hik]
      simp [hik, this]

/-- Adding the differences at positions that hold all the errors gives the codeword. -/
theorem addErrors_errorAt {r c : List Byte} (hlen : c.length = r.length) {is : List Nat} (hnodup : is.Nodup)
    (hall : ∀ i ∈ diffPositions r c, i ∈ is) : addErrors r is (is.map (errorAt r c)) = c := by
  refine List.ext_getElem? fun i => ?_
  rw [addErrors_getElem? _ hnodup]
  by_cases hi : i < r.length
  · rw [List.getElem?_eq_getElem hi, List.getElem?_eq_getElem (hlen ▸ hi)]
    split
    case isTrue => simp [errorAt, hi, hlen, ← BitVec.xor_assoc]
    case isFalse h =>
      have herr := errorAt_eq_zero_iff.1 (errorAt_of_notMem hlen (mt (hall i) h))
      simpa [hi, hlen] using herr
  · rw [List.getElem?_eq_none (not_lt.1 hi), List.getElem?_eq_none (by omega)]
    simp

/-! ### A word near a codeword -/

section
variable {r c : List Byte} {p : Nat} (hlen : c.length = r.length) (hp : p ≤ r.length)
  (hc : isCodeword params p c = true)
include hlen hp hc

/-- The syndromes of a word are those of its difference from a codeword. -/
theorem GfReading.map_syndrome_eq_sum {F : Type} [Field F] {φ : Byte → F} (hφ : GfReading φ) {j : Nat} (hj : j < p) :
    φ (syndrome params r j) = ∑ i ∈ diffPositions r c, φ (errorAt r c i) * φ (locator params r.length i) ^ j := by
  have hsub := hφ.eval_sub_eval hlen.symm j
  rw [hφ.eval_eq_zero_of_isCodeword (hlen ▸ hp) hc hj, sub_zero] at hsub
  simp only [hφ.map_syndrome, hsub, errorAt, hφ.map_xor_eq_sub]

/-- The values of the locator polynomial, weighted by the errors, solve a Vandermonde system: its left-hand sides are
the products of the polynomial with consecutive syndromes. -/
theorem GfReading.sum_errorAt_mul_locatorPoly {F : Type} [Field F] {φ : Byte → F} (hφ : GfReading φ) {m : Nat}
    (hm : m < p / 2) :
    ∑ i ∈ diffPositions r c, φ (errorAt r c i) *
      (polyOf φ (locatorPoly params (p / 2) r).reverse).eval (φ (locator params r.length i)) *
        φ (locator params r.length i) ^ m = 0 := by
  have hker := hφ.map_eq_zero_iff.2 (gfDot_locatorPoly r hm)
  rw [hφ.map_gfDot, List.length_map, List.length_range] at hker
  rw [← hker]
  simp only [eval_polyOf_reverse, locatorPoly_length, Finset.mul_sum, Finset.sum_mul]
  rw [Finset.sum_comm]
  refine Finset.sum_congr rfl fun j hj => ?_
  have hj : j < p / 2 + 1 := Finset.mem_range.1 hj
  have hsyn : ((List.range (p / 2 + 1)).map fun j => syndrome params r (m + j)).getD j 0 =
      syndrome params r (m + j) := by simp [hj]
  rw [hsyn, hφ.map_syndrome_eq_sum hlen hp hc (by omega), Finset.sum_mul]
  exact Finset.sum_congr rfl fun i _ => by ring

/-- The locator polynomial vanishes at every error's locator. -/
theorem GfReading.eval_locatorPoly_eq_zero {F : Type} [Field F] {φ : Byte → F} (hφ : GfReading φ)
    (hn : r.length ≤ 255) (hd : hamming r c ≤ p / 2) {i : Nat} (hi : i ∈ diffPositions r c) :
    (polyOf φ (locatorPoly params (p / 2) r).reverse).eval (φ (locator params r.length i)) = 0 := by
  have hinj : Set.InjOn (fun i => φ (locator params r.length i)) (diffPositions r c) :=
    hφ.injective.comp_injOn fun i hi j hj => locator_inj hn (mem_diffPositions.1 hi).1 (mem_diffPositions.1 hj).1
  have hne : φ (errorAt r c i) ≠ 0 := fun h =>
    (mem_diffPositions.1 hi).2 (errorAt_eq_zero_iff.1 (hφ.map_eq_zero_iff.1 h))
  have hzero := eq_zero_of_sum_mul_pow_eq_zero hinj (hamming_eq_card hlen.symm ▸ hd)
    (fun m hm => hφ.sum_errorAt_mul_locatorPoly hlen hp hc hm) hi
  exact (mul_eq_zero.1 hzero).resolve_left hne

/-- Every position in error is a suspect. -/
theorem mem_suspects_of_mem_diffPositions (hn : r.length ≤ 255) (hd : hamming r c ≤ p / 2) {i : Nat}
    (hi : i ∈ diffPositions r c) : i ∈ suspects params (p / 2) r := by
  obtain ⟨F, _, φ, hφ⟩ := exists_gfReading
  refine mem_suspects.2 ⟨(mem_diffPositions.1 hi).1, ?_⟩
  rw [← hφ.map_eq_zero_iff, hφ.map_polyEval]
  exact hφ.eval_locatorPoly_eq_zero hlen hp hc hn hd hi

/-- A syndrome as a product over any positions that hold all the errors. -/
theorem syndrome_eq_gfDot {is : List Nat} (hnodup : is.Nodup) (hall : ∀ i ∈ diffPositions r c, i ∈ is) {j : Nat}
    (hj : j < p) : syndrome params r j =
      gfDot params (powRow (is.map (locator params r.length)) j) (is.map (errorAt r c)) := by
  obtain ⟨F, _, φ, hφ⟩ := exists_gfReading
  apply hφ.injective
  rw [hφ.map_syndrome_eq_sum hlen hp hc hj, powRow, List.map_map, hφ.map_gfDot_map, ← List.sum_toFinset _ hnodup]
  simp only [Function.comp_apply, hφ.map_gfPow, mul_comm]
  refine Finset.sum_subset (fun i hi => List.mem_toFinset.2 (hall i hi)) fun i _ hi => ?_
  rw [errorAt_of_notMem hlen hi, hφ.map_zero, zero_mul]

/-- The error values at positions that hold all the errors are the differences from the codeword. -/
theorem errorValues_eq (hn : r.length ≤ 255) {is : List Nat} (hnodup : is.Nodup)
    (hall : ∀ i ∈ diffPositions r c, i ∈ is) (hlt : ∀ i ∈ is, i < r.length) (hle : is.length ≤ p) :
    errorValues params r is = is.map (errorAt r c) := by
  have hx : (is.map (locator params r.length)).Nodup :=
    hnodup.map_on fun i hi j hj => locator_inj hn (hlt i hi) (hlt j hj)
  obtain ⟨w, hw, hker⟩ := kernelVec_powSystem hx (ds := is.map (errorAt r c)) (by simp)
  have hrows : ((List.range is.length).map fun j =>
      (is.map (locator params r.length)).map (fun x => gfPow params x (params.rsFcr + j)) ++ [syndrome params r j]) =
      powSystem (is.map (locator params r.length)) (is.map (errorAt r c)) := by
    rw [powSystem, List.length_map]
    refine List.map_congr_left fun j hj => ?_
    have hfcr : params.rsFcr + j = j := Nat.zero_add j
    rw [← syndrome_eq_gfDot hlen hp hc hnodup hall ((List.mem_range.1 hj).trans_le hle), hfcr, powRow]
  have hinv (b : Byte) : gfMul params (gfInv params w) (gfMul params w b) = b := by
    rw [← gfMul_assoc, gfMul_comm (gfInv params w), gfMul_gfInv hw, one_gfMul]
  rw [List.length_map] at hker
  unfold errorValues
  dsimp only
  rw [hrows, hker, List.dropLast_concat, List.getLastD_concat, List.map_map]
  exact List.map_id'' hinv _

/-- With a codeword within distance `p div 2` the candidate is that codeword. -/
theorem correctionCandidate_eq (hn : r.length ≤ 255) (hd : hamming r c ≤ p / 2) :
    correctionCandidate params (p / 2) r = c := by
  have hall := fun i => mem_suspects_of_mem_diffPositions hlen hp hc hn hd (i := i)
  have hnodup := suspects_nodup params (p / 2) r
  rw [correctionCandidate, errorValues_eq hlen hp hc hn hnodup hall (fun i hi => (mem_suspects.1 hi).1)
    ((suspects_length_le hn).trans (Nat.div_le_self p 2)), addErrors_errorAt hlen hnodup hall]

theorem rsDecode_of_hamming_le (hr : isCodeword params p r = false) (hn : r.length ≤ 255) (hd : hamming r c ≤ p / 2) :
    rsDecode params r p = some (c.take (r.length - p), hamming r c) := by
  have hmax : ¬ Config.rsNmax < r.length := not_lt.2 hn
  simp only [rsDecode, hr, Bool.false_eq_true, if_false, hmax, correctionCandidate_eq hlen hp hc hn hd, hc, hd,
    and_self, if_true]

/-- A word within `p div 2` of a codeword decodes to it, itself a codeword or not. -/
theorem rsDecode_of_isCodeword_near (hn : r.length ≤ 255) (hd : hamming r c ≤ p / 2) :
    rsDecode params r p = some (c.take (r.length - p), hamming r c) := by
  cases hr : isCodeword params p r with
  | false => exact rsDecode_of_hamming_le hlen hp hc hr hn hd
  | true =>
    obtain rfl : r = c := by
      by_contra hne
      have := lt_hamming_of_isCodeword hlen.symm hp hn hr hc hne
      omega
    rw [rsDecode_of_isCodeword params hr, hamming_self]

end

/-! ### The decoder -/

theorem rsDecode_eq_none {P : Params} {r : List Byte} {p : Nat} (hr : isCodeword P p r = false)
    (h : 255 < r.length ∨ ∀ c : List Byte, c.length = r.length → isCodeword P p c = true → p / 2 < hamming r c) :
    rsDecode P r p = none := by
  refine Option.eq_none_iff_forall_ne_some.2 fun ⟨msg, e⟩ hd => ?_
  obtain ⟨c, hc, hlen, -, ⟨rfl, -⟩ | ⟨hn, rfl, he⟩⟩ := rsDecode_cases P r p msg e hd
  · exact absurd hc (by simp [hr])
  · obtain hlong | hfar := h
    · omega
    · exact absurd (hfar c hlen hc) (by omega)

/-- Settles O29: the candidate is the near codeword, and whatever is answered is a codeword that is near. -/
theorem rsDecodeIsBoundedDistance : Obligations.RsDecodeIsBoundedDistance :=
  fun _ _ hp => ⟨rsDecode_of_isCodeword params, fun hr hn _ hlen hc hd => rsDecode_of_hamming_le hlen hp hc hr hn hd,
    rsDecode_eq_none⟩

theorem rsDecode_of_near_rsEncode {m r : List Byte} {p : Nat} (hn : m.length + p ≤ 255) (hlen : r.length = m.length + p)
    (hd : hamming r (rsEncode params m p) ≤ p / 2) :
    rsDecode params r p = some (m, hamming r (rsEncode params m p)) := by
  rw [rsDecode_of_isCodeword_near (by rw [rsEncode_length, hlen]) (by omega) (isCodeword_rsEncode params m p) (by omega)
    hd, hlen, Nat.add_sub_cancel, rsEncode_take]

/-- Settles O31: the encoder's word is the codeword within the correction radius. -/
theorem rsCorrectsErrors : Obligations.RsCorrectsErrors := fun _ _ _ hn hlen hd => rsDecode_of_near_rsEncode hn hlen hd

end Sys2Proof.Machine
end

section
/-! The direct commands RS_ENC and RS_DEC (43_fec_codec R220, R221). Both, and the envelope's commands, end in
one store. -/

namespace Sys2Proof.Machine

open Config (params)

/-! ### Commands with one store -/

section
variable {s r : State} {i : Instr} {st : Store}

theorem exec_of_raise {e : CmdError} (h : commandResult params i s = .raise s e) :
    exec i s = .next (s.failed e.code e.detail) := by
  rw [exec_eq_finish, h, finish_raise]

theorem exec_of_ok_singleton (h : commandResult params i s = .ok r [st]) :
    exec i s = .next (r.applyStore st).completed := by
  rw [exec_eq_finish, h, finish_ok, applyStores_cons, applyStores_nil]

/-- After a command with one store a byte reads what the store put there, or what it was. -/
theorem loadByte_of_ok_singleton (h : commandResult params i s = .ok r [st]) (sp : Space) (a : Nat) :
    (r.applyStore st).completed.loadByte sp a =
      if sp = st.space ∧ st.off ≤ a ∧ a < st.off + st.bytes.length then st.bytes.getD (a - st.off) 0
      else s.loadByte sp a := by
  have heffect := commandResult_effect params s i
  rw [h] at heffect
  obtain ⟨hpbuf, hebuf, hfb, hepoch, -⟩ := heffect.regs_keeps_buffers
  have hmem : r.mem sp = s.mem sp := by cases sp <;> assumption
  rw [← complete_none_eq, complete_loadByte, State.loadByte_applyStore, State.loadByte_congr sp a hmem hepoch]
  simp only [st.covers_iff, eq_comm]

end

/-! ### RS_ENC -/

/-- RS_ENC's checks on the operands themselves, with the default sizes (43_fec_codec R220). -/
theorem cmdRsEnc_eq_ite (s : State) : cmdRsEnc params s =
    if 254 < s.rsNsym.toNat ∨ s.rsLen.toNat < s.rsNsym.toNat then .raise s .badNsym
    else if 2073600 < s.rsSrc.toNat + s.rsLen.toNat ∨ 2073600 < s.rsDst.toNat + s.rsLen.toNat + s.rsNsym.toNat then
      .raise s .badRange
    else .ok { s with rsOutlen := BitVec.ofNat 32 (s.rsLen.toNat + s.rsNsym.toNat) }
      [⟨.ebuf, s.rsDst.toNat,
        rsEncode params (s.loadBytes .ebuf s.rsSrc.toNat s.rsLen.toNat) s.rsNsym.toNat⟩] := by
  have hmax : params.rsMaxNsym = 254 := rfl
  have hsize : params.sizeOf .ebuf = 2073600 := rfl
  simp only [cmdRsEnc, hmax, hsize, inSpace, Bool.not_eq_true', decide_eq_false_iff_not, not_le, ite_or, Nat.add_assoc]

/-- Settles O32, check by check. -/
theorem rsEncStoresCodeword : Obligations.RsEncStoresCodeword := by
  refine ⟨rfl, fun s => ?_⟩
  have hresult : commandResult params .rsEnc s = cmdRsEnc params s := rfl
  rw [cmdRsEnc_eq_ite] at hresult
  refine ⟨fun h => ?_, fun hp hk h => ?_, fun hp hk hsrc hdst => ?_⟩
  · rw [if_pos h] at hresult
    exact exec_of_raise hresult
  · rw [if_neg (by omega), if_pos h] at hresult
    exact exec_of_raise hresult
  · rw [if_neg (by omega), if_neg (by omega)] at hresult
    refine ⟨_, exec_of_ok_singleton hresult, rfl, ?_, fun sp a => ?_⟩
    · exact Nat.mod_eq_of_lt (by omega)
    · rw [loadByte_of_ok_singleton hresult]
      simp only [rsEncode_length, loadBytes_length]

/-! ### RS_DEC -/

/-- RS_DEC's checks on the operands themselves, with the default sizes (43_fec_codec R221). -/
theorem cmdRsDec_eq_ite (s : State) : cmdRsDec params s =
    if 254 < s.rsNsym.toNat ∨ s.rsLen.toNat < 2 * s.rsNsym.toNat then .raise s .badNsym
    else if 2073600 < s.rsSrc.toNat + s.rsLen.toNat ∨ 2073600 < s.rsDst.toNat + (s.rsLen.toNat - s.rsNsym.toNat) then
      .raise s .badRange
    else (rsDecode params (s.loadBytes .ebuf s.rsSrc.toNat s.rsLen.toNat) s.rsNsym.toNat).elim (.raise s .rsCorrupt)
      fun q => .ok { s with
          rsOutlen    := BitVec.ofNat 32 (s.rsLen.toNat - s.rsNsym.toNat)
          decNerrData := BitVec.ofNat 16 q.2
          decNerrMeta := 0 }
        [⟨.ebuf, s.rsDst.toNat, q.1⟩] := by
  have hmax : params.rsMaxNsym = 254 := rfl
  have hsize : params.sizeOf .ebuf = 2073600 := rfl
  simp only [cmdRsDec, hmax, hsize, inSpace, Bool.not_eq_true', decide_eq_false_iff_not, not_le, ite_or]
  cases rsDecode params (s.loadBytes .ebuf s.rsSrc.toNat s.rsLen.toNat) s.rsNsym.toNat <;> rfl

/-- The count of a decode is at most half the parity count. -/
theorem rsDecode_count_le {P : Params} {r msg : List Byte} {p e : Nat} (h : rsDecode P r p = some (msg, e)) :
    e ≤ p / 2 := by
  obtain ⟨c, -, -, -, ⟨-, rfl⟩ | ⟨-, -, he⟩⟩ := rsDecode_cases P r p msg e h
  · exact Nat.zero_le _
  · exact he

/-- Settles O33, check by check, then by the decoder's outcome. -/
theorem rsDecStoresMessage : Obligations.RsDecStoresMessage := by
  refine ⟨rfl, fun s => ?_⟩
  have hresult : commandResult params .rsDec s = cmdRsDec params s := rfl
  rw [cmdRsDec_eq_ite] at hresult
  refine ⟨fun h => ?_, fun hp hn h => ?_, fun hp hn hsrc hdst => ?_⟩
  · rw [if_pos h] at hresult
    exact exec_of_raise hresult
  · rw [if_neg (by omega), if_pos h] at hresult
    exact exec_of_raise hresult
  rw [if_neg (by omega), if_neg (by omega)] at hresult
  refine ⟨fun h => ?_, fun msg e h => ?_⟩
  · rw [h] at hresult
    exact exec_of_raise hresult
  · rw [h] at hresult
    have hcount := rsDecode_count_le h
    have hlen := rsDecode_length _ _ _ _ _ h
    rw [loadBytes_length] at hlen
    refine ⟨_, exec_of_ok_singleton hresult, rfl, ?_, fun sp a => ?_⟩
    · exact Nat.mod_eq_of_lt (by omega)
    · rw [loadByte_of_ok_singleton hresult]
      simp only [hlen]

end Sys2Proof.Machine
end

section
/-! The envelope (43_fec_codec R240 to R248): parsing step by step, building, the round trip and the noise it tolerates
(44_frame_pipelines R267), and the commands ENV_BUILD and ENV_PARSE. -/

namespace Sys2Proof.Machine

open Config (params)

/-! ### Parsing -/

theorem parseEnvelope_of_short {raw : List Byte} (h : raw.length < 8) :
    parseEnvelope params raw = .error .frameTooSmall :=
  if_pos h

theorem parseEnvelope_of_metaCorrupt {raw : List Byte} (h8 : 8 ≤ raw.length)
    (hm : rsDecode params (raw.take 8) 4 = none) : parseEnvelope params raw = .error .metaCorrupt := by
  simp only [parseEnvelope, h8.not_gt, if_false, Config.metadataSize, Config.metadataParity, hm]

/-- With its metadata decoded, parsing checks the length field and decodes the data block (43_fec_codec R245). -/
theorem parseEnvelope_of_meta {raw lf : List Byte} {em : Nat} (h8 : 8 ≤ raw.length)
    (hm : rsDecode params (raw.take 8) 4 = some (lf, em)) : parseEnvelope params raw =
      if raw.length < 8 + unle lf then .error .lengthCorrupt
      else (rsDecode params ((raw.drop 8).take (unle lf)) (min (unle lf / 2) 64)).elim (.error .dataCorrupt)
        fun q => .ok ⟨q.1, unle lf, min (unle lf / 2) 64, em, q.2⟩ := by
  have hun : unLenBytes params lf = unle lf := rfl
  have hregion : (raw.drop 8).length < unle lf ↔ raw.length < 8 + unle lf := by rw [List.length_drop]; omega
  simp only [parseEnvelope, h8.not_gt, if_false, Config.metadataSize, Config.metadataParity, Config.dataParityMax, hm,
    hun, hregion]
  cases rsDecode params ((raw.drop 8).take (unle lf)) (min (unle lf / 2) 64) <;> rfl

/-- Settles O35, step by step. -/
theorem parseEnvelopeSteps : Obligations.ParseEnvelopeSteps := by
  refine fun raw => ⟨parseEnvelope_of_short, fun h8 => ⟨parseEnvelope_of_metaCorrupt h8, fun lf em hm => ?_⟩⟩
  rw [parseEnvelope_of_meta h8 hm]
  refine ⟨fun h => if_pos h, fun h => ⟨fun hd => ?_, fun payload ed hd => ?_⟩⟩
  · rw [if_neg h.not_gt, hd, Option.elim_none]
  · rw [if_neg h.not_gt, hd, Option.elim_some]

/-! ### Building -/

theorem buildEnvelope_of_lt {payload : List Byte} {n : Nat} (h : n < 8 + payload.length + min payload.length 64) :
    buildEnvelope params payload n = .error .envelopeTooLong := by
  simp only [buildEnvelope, requestedParity, Config.dataParityMax, Config.metadataParity, List.length_append,
    rsEncode_length, lenBytes_length]
  exact if_pos (by omega)

/-- Settles O37, by comparing the envelope's length with the room. -/
theorem envelopeSizeAndCapacity : Obligations.EnvelopeSizeAndCapacity :=
  fun payload n => ⟨envelopeOf_length payload, buildEnvelope_of_fits, buildEnvelope_of_lt, fun h => by omega⟩

/-! ### The round trip -/

theorem unle_le32 {n : Nat} (h : n < 2 ^ 32) : unle (le32 n) = n := by
  simp only [le32, unle, BitVec.toNat_ofNat]
  omega

/-- The decode-time parity count is the encode-time one (43_fec_codec R247). -/
theorem parity_of_dataLen (k : Nat) : min ((k + min k 64) / 2) 64 = min k 64 := by omega

theorem envelopeOf_take (payload : List Byte) : (envelopeOf payload).take 8 =
    rsEncode params (le32 (payload.length + min payload.length 64)) 4 :=
  List.take_left' (by rw [rsEncode_length]; rfl)

theorem envelopeOf_drop (payload : List Byte) : (envelopeOf payload).drop 8 =
    rsEncode params payload (min payload.length 64) :=
  List.drop_left' (by rw [rsEncode_length]; rfl)

/-- Parsing a list whose metadata block decodes to the length of a payload's data block goes on with that block. -/
theorem parseEnvelope_of_dataLen {payload raw : List Byte} {em : Nat} (hk : payload.length + 64 < 2 ^ 32)
    (hlen : 8 + (payload.length + min payload.length 64) ≤ raw.length)
    (hm : rsDecode params (raw.take 8) 4 = some (le32 (payload.length + min payload.length 64), em)) :
    parseEnvelope params raw =
      (rsDecode params ((raw.drop 8).take (payload.length + min payload.length 64)) (min payload.length 64)).elim
        (.error .dataCorrupt)
        fun q => .ok ⟨q.1, payload.length + min payload.length 64, min payload.length 64, em, q.2⟩ := by
  rw [parseEnvelope_of_meta (by omega) hm, unle_le32 (by omega), if_neg (by omega), parity_of_dataLen]

/-- Settles O38: both blocks are codewords, and the length field gives the data block back. -/
theorem envelopeRoundTrip : Obligations.EnvelopeRoundTrip := by
  intro payload rest hk
  have hlen := envelopeOf_length payload
  have hm : rsDecode params ((envelopeOf payload ++ rest).take 8) 4 =
      some (le32 (payload.length + min payload.length 64), 0) := by
    rw [List.take_append_of_le_length (by omega), envelopeOf_take, rsDecode_rsEncode]
  have hdata : ((envelopeOf payload ++ rest).drop 8).take (payload.length + min payload.length 64) =
      rsEncode params payload (min payload.length 64) := by
    rw [List.drop_append_of_le_length (by omega), envelopeOf_drop, List.take_left' (rsEncode_length _ _ _)]
  rw [parseEnvelope_of_dataLen hk (by rw [List.length_append]; omega) hm, hdata, rsDecode_rsEncode, Option.elim_some]

/-- Settles O39: the metadata block is corrected, and the data block up to 255 bytes; beyond, errors are detected. -/
theorem envelopeNoiseTolerance : Obligations.EnvelopeNoiseTolerance := by
  intro payload raw hk l data hlen hmeta
  have hm := rsDecode_of_near_rsEncode (m := le32 l) (r := raw.take 8) (p := 4) (by simp [le32]) (by simp [le32]; omega)
    (envelopeOf_take payload ▸ hmeta)
  have hparse := parseEnvelope_of_dataLen hk hlen hm
  have hdata : data.length = l := by
    rw [List.length_take, List.length_drop]
    omega
  refine ⟨fun hl hd => ?_, fun hl hd => ?_⟩
  · rw [envelopeOf_drop] at hd
    rw [hparse, rsDecode_of_near_rsEncode hl hdata hd, envelopeOf_take, envelopeOf_drop, Option.elim_some]
  · rw [hparse, rsDecode_eq_none hd (.inl (by omega)), Option.elim_none]

/-! ### ENV_BUILD -/

theorem dimN_le {s : State} (h : s.dimsUsable) : s.dimN ≤ 2073600 := by
  obtain ⟨-, -, -, hmax, -⟩ := gridCompute_bound _ _ _ (gridCompute_of_dimsUsable h)
  exact hmax

/-- ENV_BUILD's checks past the grid's, with the default sizes (43_fec_codec R242). -/
theorem cmdEnvBuild_of_dimsUsable {s : State} (h : s.dimsUsable) : cmdEnvBuild params s =
    if 2073600 < s.payloadLen.toNat then .raise s .badLength
    else if s.payloadLen.toNat = 0 then .raise s .inputEmpty
    else if s.dimN < 8 + s.payloadLen.toNat + min s.payloadLen.toNat 64 then .raise s .envelopeTooLong
    else .ok { s with
        envLen   := BitVec.ofNat 32 (8 + s.payloadLen.toNat + min s.payloadLen.toNat 64)
        dataLen  := BitVec.ofNat 32 (s.payloadLen.toNat + min s.payloadLen.toNat 64)
        dataNsym := BitVec.ofNat 8 (min s.payloadLen.toNat 64) }
      [⟨.ebuf, 0, envelopeOf (s.loadBytes .pbuf 0 s.payloadLen.toNat)⟩] := by
  have hmax : params.pbufBytes = 2073600 := rfl
  have hn := dimN_le h
  simp only [cmdEnvBuild, gridCompute_of_dimsUsable h, hmax]
  split_ifs with hlong hzero hroom
  · rfl
  · rfl
  · rw [buildEnvelope_of_lt (by rwa [loadBytes_length])]
  · have hfits : inSpace params .ebuf 0 (8 + s.payloadLen.toNat + min s.payloadLen.toNat 64) = true :=
      decide_eq_true (show _ ≤ 2073600 by omega)
    rw [buildEnvelope_of_fits (by rw [loadBytes_length]; omega)]
    simp only [envelopeOf_length, loadBytes_length, hfits]
    rfl

/-- Settles O34, check by check. -/
theorem envBuildStoresEnvelope : Obligations.EnvBuildStoresEnvelope := by
  refine ⟨rfl, fun s => ⟨fun e he => exec_of_gridCompute_error he (by simp), fun h hlong => ?_, fun h hzero => ?_,
    fun h hpos hk hroom => ?_, fun h hpos hk hroom => ?_⟩⟩
  all_goals
    have hresult : commandResult params .envBuild s = cmdEnvBuild params s := rfl
    rw [cmdEnvBuild_of_dimsUsable h] at hresult
  · rw [if_pos hlong] at hresult
    exact exec_of_raise hresult
  · rw [if_neg (by omega), if_pos hzero] at hresult
    exact exec_of_raise hresult
  · rw [if_neg hk.not_gt, if_neg hpos.ne', if_pos hroom] at hresult
    exact exec_of_raise hresult
  · rw [if_neg hk.not_gt, if_neg hpos.ne', if_neg hroom.not_gt] at hresult
    refine ⟨_, exec_of_ok_singleton hresult, rfl, fun sp a => ?_⟩
    rw [loadByte_of_ok_singleton hresult]
    simp only [envelopeOf_length, loadBytes_length, Nat.zero_le, true_and, Nat.zero_add, Nat.sub_zero]

/-! ### ENV_PARSE -/

theorem cmdEnvParse_of_error {s : State} (h : s.dimsUsable) {e : CmdError}
    (he : parseEnvelope params (s.loadBytes .ebuf 0 s.dimN) = .error e) : cmdEnvParse params s = .raise s e := by
  have hfits : inSpace params .ebuf 0 s.dimN = true := decide_eq_true (by rw [Nat.zero_add]; exact dimN_le h)
  simp only [cmdEnvParse, gridCompute_of_dimsUsable h, hfits, he]
  rfl

theorem cmdEnvParse_of_ok {s : State} (h : s.dimsUsable) {q : Parsed}
    (hq : parseEnvelope params (s.loadBytes .ebuf 0 s.dimN) = .ok q) :
    cmdEnvParse params s = .ok (s.commitParsed q) [⟨.pbuf, 0, q.payload⟩] := by
  obtain ⟨-, hlen⟩ := parseEnvelope_payload_length _ _ _ hq
  rw [loadBytes_length] at hlen
  have hfits : inSpace params .ebuf 0 s.dimN = true := decide_eq_true (by rw [Nat.zero_add]; exact dimN_le h)
  have hpayload : inSpace params .pbuf 0 q.payload.length = true :=
    decide_eq_true (by rw [Nat.zero_add]; exact hlen.trans (dimN_le h))
  simp only [cmdEnvParse, gridCompute_of_dimsUsable h, hfits, hq, hpayload]
  rfl

/-- Settles O36, by the outcome of the parse. -/
theorem envParseStoresPayload : Obligations.EnvParseStoresPayload := by
  refine ⟨rfl, fun s => ⟨fun e he => exec_of_gridCompute_error he (by simp),
    fun h e he => exec_of_raise (i := .envParse) (cmdEnvParse_of_error h he), fun h q hq => ?_⟩⟩
  have hresult : commandResult params .envParse s = _ := cmdEnvParse_of_ok h hq
  obtain ⟨hlen, -⟩ := parseEnvelope_payload_length _ _ _ hq
  refine ⟨_, exec_of_ok_singleton hresult, rfl, hlen, fun sp a => ?_⟩
  rw [loadByte_of_ok_singleton hresult]
  simp only [Nat.zero_le, true_and, Nat.zero_add, Nat.sub_zero]

end Sys2Proof.Machine
end

section
/-! The pixels of a rendered frame (44_frame_pipelines R261) and the bytes that scanning it reads back (R264): a pixel
belongs to the block at its own column and row, and a block of one color decodes to that color. -/

namespace Sys2Proof.Machine

open Config (params)

/-! ### Blocks and pixels -/

/-- The row-major index of the block position that holds a pixel (42_frame_geometry R181, R182). -/
def State.blockIndex (s : State) (px py : Nat) : Nat :=
  py / s.blockH.toNat * s.dimCols + px / s.blockW.toNat

section
variable {s : State}

theorem dimCols_pos {i : Nat} (hi : i < s.dimN) : 0 < s.dimCols :=
  Nat.pos_of_ne_zero fun h0 => by simp [State.dimN, h0] at hi

/-- The pixels between the bounds of a block's rectangle are those whose block position is the block's. -/
theorem mem_blockRect_iff {bw bh x y px py : Nat} (hbw : 0 < bw) (hbh : 0 < bh) :
    ((blockRect bw bh x y).x0 ≤ px ∧ px ≤ (blockRect bw bh x y).x1 ∧
      (blockRect bw bh x y).y0 ≤ py ∧ py ≤ (blockRect bw bh x y).y1) ↔ px / bw = x ∧ py / bh = y := by
  simp only [blockRect, Nat.div_eq_iff hbw, Nat.div_eq_iff hbh, Nat.succ_mul, and_assoc]

/-- The pixels of block `i` are those of the grid's columns with block index `i`. -/
theorem mem_blockRectAt_iff (h : s.dimsUsable) {i : Nat} (hi : i < s.dimN) (px py : Nat) :
    ((blockRectAt s s.dimCols i).x0 ≤ px ∧ px ≤ (blockRectAt s s.dimCols i).x1 ∧
      (blockRectAt s s.dimCols i).y0 ≤ py ∧ py ≤ (blockRectAt s s.dimCols i).y1) ↔
      px / s.blockW.toNat < s.dimCols ∧ s.blockIndex px py = i := by
  obtain ⟨hbw, hbh, -⟩ := h
  have hdivmod := Nat.div_mod_unique (a := i) (d := py / s.blockH.toNat) (c := px / s.blockW.toNat) (dimCols_pos hi)
  rw [blockRectAt, mem_blockRect_iff (Nat.pos_of_ne_zero hbw) (Nat.pos_of_ne_zero hbh), State.blockIndex,
    Nat.mul_comm, Nat.add_comm, and_comm (a := _ < _), ← hdivmod]
  tauto

/-- The block index of a pixel of the grid is one of the grid's rows too. -/
theorem blockRow_lt_dimRows {px py : Nat} (h : s.blockIndex px py < s.dimN) : py / s.blockH.toNat < s.dimRows := by
  refine Nat.lt_of_mul_lt_mul_right (a := s.dimCols) ?_
  rw [State.dimN, Nat.mul_comm, State.blockIndex] at h
  exact (Nat.le_add_right _ _).trans_lt h

end

/-- The dimension registers of two states agree. -/
abbrev State.SameDims (s t : State) : Prop :=
  t.frameW = s.frameW ∧ t.frameH = s.frameH ∧ t.blockW = s.blockW ∧ t.blockH = s.blockH

section
variable {s t : State}

theorem State.SameDims.dimCols (h : s.SameDims t) : t.dimCols = s.dimCols := by
  obtain ⟨hw, -, hbw, -⟩ := h
  rw [State.dimCols, hw, hbw, State.dimCols]

theorem State.SameDims.dimRows (h : s.SameDims t) : t.dimRows = s.dimRows := by
  obtain ⟨-, hh, -, hbh⟩ := h
  rw [State.dimRows, hh, hbh, State.dimRows]

theorem State.SameDims.dimN (h : s.SameDims t) : t.dimN = s.dimN := by
  rw [State.dimN, h.dimCols, h.dimRows, State.dimN]

theorem State.SameDims.blockIndex (h : s.SameDims t) (px py : Nat) : t.blockIndex px py = s.blockIndex px py := by
  have hcols := h.dimCols
  obtain ⟨-, -, hbw, hbh⟩ := h
  rw [State.blockIndex, hcols, hbw, hbh, State.blockIndex]

theorem State.SameDims.dimsUsable (h : s.SameDims t) (hs : s.dimsUsable) : t.dimsUsable := by
  obtain ⟨hw, hh, hbw, hbh⟩ := h
  rwa [State.dimsUsable, hw, hh, hbw, hbh]

end

/-! ### Rendering -/

section
variable {s : State}

/-- What a pixel reads after the fill loop from index `i` on: the color of its own block's byte, if the loop has one. -/
theorem loadByte_applyStores_renderFrom (h : s.dimsUsable) (u : State) {px py c : Nat} (hpx : px < s.frameW.toNat)
    (hc : c < 3) {i : Nat} {bs : List Byte} (hi : i + bs.length ≤ s.dimN) :
    (u.applyStores (renderFrom s s.dimCols i bs)).loadByte .fb (fbAddr s.frameW.toNat px py c) =
      if px / s.blockW.toNat < s.dimCols ∧ i ≤ s.blockIndex px py ∧ s.blockIndex px py < i + bs.length then
        rgbChannel (encodeColor (bs.getD (s.blockIndex px py - i) 0)) c
      else u.loadByte .fb (fbAddr s.frameW.toNat px py c) := by
  induction bs generalizing u i with
  | nil =>
    rw [List.length_nil, if_neg (by omega)]
    rfl
  | cons b bs ih =>
    rw [List.length_cons] at hi ⊢
    have hin : i < s.dimN := by omega
    obtain ⟨hx, -⟩ := blockRectAt_lt_frame (gridCompute_of_dimsUsable h) hin
    rw [renderFrom, applyStores_append, ih _ (by omega), loadByte_applyStores_fillRect u hx hpx hc,
      if_congr (mem_blockRectAt_iff h hin px py) rfl rfl]
    by_cases hcol : px / s.blockW.toNat < s.dimCols
    · obtain hlt | heq | hgt := Nat.lt_trichotomy (s.blockIndex px py) i
      · rw [if_neg (by omega), if_neg (by omega), if_neg (by omega)]
      · rw [if_neg (by omega), if_pos ⟨hcol, heq⟩, if_pos (by omega), heq, Nat.sub_self, List.getD_cons_zero]
      · have hsub : s.blockIndex px py - i = s.blockIndex px py - (i + 1) + 1 := by omega
        rw [hsub, List.getD_cons_succ, if_neg (show ¬ (_ ∧ s.blockIndex px py = i) by omega)]
        exact if_congr (by omega) rfl rfl
    · simp only [hcol, false_and, if_false]

/-- What a pixel of the frame reads after rendering: the color of its block's byte, or the background's. -/
theorem loadByte_applyStores_renderStores (h : s.dimsUsable) {px py c : Nat} (hpx : px < s.frameW.toNat)
    (hpy : py < s.frameH.toNat) (hc : c < 3) {env : List Byte} (henv : env.length ≤ s.dimN) :
    (s.applyStores (renderStores s s.dimCols env)).loadByte .fb (fbAddr s.frameW.toNat px py c) =
      if px / s.blockW.toNat < s.dimCols ∧ s.blockIndex px py < env.length then
        rgbChannel (encodeColor (env.getD (s.blockIndex px py) 0)) c
      else rgbChannel s.bgRgb c := by
  have hw : s.frameW.toNat ≠ 0 := by omega
  rw [renderStores, applyStores_append, loadByte_applyStores_renderFrom h _ hpx hc (by rwa [Nat.zero_add]), blankStores,
    loadByte_applyStores_fillRect _ (Nat.sub_one_lt hw) hpx hc, if_pos (show _ ∧ _ ∧ _ ∧ _ by dsimp only; omega)]
  simp only [Nat.zero_le, true_and, Nat.zero_add, Nat.sub_zero]

/-- Rendering leaves everything but the frame area as it was. -/
theorem loadByte_applyStores_renderStores_of_outside (h : s.dimsUsable) {env : List Byte} (henv : env.length ≤ s.dimN)
    {sp : Space} {a : Nat} (hout : sp ≠ .fb ∨ 3 * (s.frameW.toNat * s.frameH.toNat) ≤ a) :
    (s.applyStores (renderStores s s.dimCols env)).loadByte sp a = s.loadByte sp a := by
  refine State.loadByte_applyStores_of_not_covered _ _ _ _ fun st hst => Bool.eq_false_iff.2 fun hc => ?_
  obtain ⟨hsp, hlt⟩ := renderStores_covers_lt (gridCompute_of_dimsUsable h) henv hst hc
  exact hout.elim (· hsp) hlt.not_ge

end

/-! ### Scanning -/

/-- A rectangle whose pixels all show one color decodes to it (41_color_codec R167, R168). -/
theorem blockByte_of_uniform (P : Params) {s : State} {rect : Rect} {col : Rgb} (hx : rect.x0 ≤ rect.x1)
    (hy : rect.y0 ≤ rect.y1)
    (h : ∀ px py c, rect.x0 ≤ px ∧ px ≤ rect.x1 ∧ rect.y0 ≤ py ∧ py ≤ rect.y1 → c < 3 →
      s.loadByte .fb (fbAddr s.frameW.toNat px py c) = rgbChannel col c) :
    blockByte P s rect = decodeColor col := by
  have hest (c : Nat) (hc : c < 3) : est P (readChannel s rect c) = (rgbChannel col c).toNat := by
    have hne : readChannel s rect c ≠ [] := List.ne_nil_of_mem (List.mem_flatMap.2
      ⟨0, List.mem_range.2 (by omega), List.mem_map.2 ⟨0, List.mem_range.2 (by omega), rfl⟩⟩)
    refine est_of_forall_eq P hne fun v hv => ?_
    simp only [readChannel, List.mem_flatMap, List.mem_map, List.mem_range] at hv
    obtain ⟨dy, hdy, dx, hdx, rfl⟩ := hv
    rw [h _ _ c (by omega) hc]
  rw [blockByte, hest 0 (by decide), hest 1 (by decide), hest 2 (by decide)]
  rfl

/-- A block of the grid whose pixels all show one color scans as that color's byte. -/
theorem blockByte_blockRectAt_of_uniform (P : Params) {s : State} (h : s.dimsUsable) {i : Nat} (hi : i < s.dimN)
    {col : Rgb} (hpixels : ∀ px py c, px < s.frameW.toNat → py < s.frameH.toNat → c < 3 →
      px / s.blockW.toNat < s.dimCols → s.blockIndex px py = i →
      s.loadByte .fb (fbAddr s.frameW.toNat px py c) = rgbChannel col c) :
    blockByte P s (blockRectAt s s.dimCols i) = decodeColor col := by
  obtain ⟨hx1, hy1⟩ :
      (blockRectAt s s.dimCols i).x1 < s.frameW.toNat ∧ (blockRectAt s s.dimCols i).y1 < s.frameH.toNat :=
    blockRectAt_lt_frame (gridCompute_of_dimsUsable h) hi
  obtain ⟨hbw, hbh, -⟩ := id h
  refine blockByte_of_uniform P ?_ ?_ fun px py c hmem hc => ?_
  · simp only [blockRectAt, blockRect, Nat.succ_mul]
    omega
  · simp only [blockRectAt, blockRect, Nat.succ_mul]
    omega
  · obtain ⟨hcol, hindex⟩ := (mem_blockRectAt_iff h hi px py).1 hmem
    exact hpixels px py c (by omega) (by omega) hc hcol hindex

/-- With the dimension registers of `s`, the frame buffer of `t` shows the bytes of `env` in the grid's blocks, and the
color `bg` in the blocks after them. -/
def State.FrameShows (s t : State) (env : List Byte) (bg : Rgb) : Prop :=
  ∀ px py c, px < s.frameW.toNat → py < s.frameH.toNat → c < 3 → px / s.blockW.toNat < s.dimCols →
    s.blockIndex px py < s.dimN → t.loadByte .fb (fbAddr s.frameW.toNat px py c) =
      rgbChannel (if s.blockIndex px py < env.length then encodeColor (env.getD (s.blockIndex px py) 0) else bg) c

theorem State.SameDims.frameShows_iff {s t : State} (h : s.SameDims t) (u : State) (env : List Byte) (bg : Rgb) :
    t.FrameShows u env bg ↔ s.FrameShows u env bg := by
  have hcols := h.dimCols
  have hn := h.dimN
  have hindex := h.blockIndex
  obtain ⟨hw, hh, hbw, -⟩ := h
  simp only [State.FrameShows, hcols, hn, hindex, hw, hh, hbw]

/-- Scanning a frame that shows a list of bytes reads the list, and then the byte of the color after it up to the end of
the grid (44_frame_pipelines R264, R266). -/
theorem scan_of_frameShows (P : Params) {s : State} (h : s.dimsUsable) {env : List Byte} {bg : Rgb}
    (henv : env.length ≤ s.dimN) (hshows : s.FrameShows s env bg) :
    scan P s s.dimCols s.dimN = env ++ List.replicate (s.dimN - env.length) (decodeColor bg) := by
  refine List.ext_getElem (by rw [scan_length, List.length_append, List.length_replicate]; omega) fun i hi _ => ?_
  rw [scan_length] at hi
  have hblock : blockByte P s (blockRectAt s s.dimCols i) =
      decodeColor (if i < env.length then encodeColor (env.getD i 0) else bg) :=
    blockByte_blockRectAt_of_uniform P h hi fun px py c hpx hpy hc hcol hindex => by
      rw [hshows px py c hpx hpy hc hcol (hindex ▸ hi), hindex]
  simp only [scan, List.getElem_map, List.getElem_range, hblock, List.getElem_append]
  split
  case isTrue hlt => rw [decodeColor_encodeColor, List.getD_eq_getElem _ _ hlt]
  case isFalse => rw [List.getElem_replicate]

end Sys2Proof.Machine
end

section
/-! FRAME_ENCODE and FRAME_DECODE (44_frame_pipelines R260 to R265) and their round trip (R266). -/

namespace Sys2Proof.Machine

open Config (params)

/-! ### What a command's stores leave -/

/-- What stores leave of the buffers depends on the buffers' bytes only. -/
theorem State.loadByte_applyStores_congr {s t : State} (h : ∀ sp a, t.loadByte sp a = s.loadByte sp a)
    (sts : List Store) (sp : Space) (a : Nat) : (t.applyStores sts).loadByte sp a = (s.applyStores sts).loadByte sp a := by
  induction sts generalizing s t with
  | nil => exact h sp a
  | cons st sts ih => exact ih fun sp a => by rw [State.loadByte_applyStore, State.loadByte_applyStore, h]

/-- A byte after a command reads what the command's stores left there. -/
theorem CommandEffect.loadByte_finish {P : Params} {s : State} {i : Instr} {r : CmdResult} (h : CommandEffect P s i r)
    (sp : Space) (a : Nat) : r.finish.loadByte sp a = (s.applyStores r.stores).loadByte sp a := by
  obtain ⟨hpbuf, hebuf, hfb, hepoch, -⟩ := h.regs_keeps_buffers
  have hmem (sp : Space) : r.regs.mem sp = s.mem sp := by cases sp <;> assumption
  rw [CmdResult.finish, complete_loadByte]
  exact State.loadByte_applyStores_congr (fun sp a => State.loadByte_congr sp a (hmem sp) hepoch) _ _ _

/-- A store from the start of a buffer: its bytes, then what was there. -/
theorem State.loadByte_applyStore_zero (s : State) (dst : Space) (bs : List Byte) (sp : Space) (a : Nat) :
    (s.applyStore ⟨dst, 0, bs⟩).loadByte sp a =
      if sp = dst ∧ a < bs.length then bs.getD a 0 else s.loadByte sp a := by
  simp only [State.loadByte_applyStore, Store.covers_iff, Nat.zero_le, true_and, Nat.zero_add, Nat.sub_zero,
    eq_comm (a := dst)]

/-- Stores outside `PBUF` change the other two buffers only. -/
theorem applyStores_eq_of_ne_pbuf {s : State} {sts : List Store} (h : ∀ st ∈ sts, st.space ≠ .pbuf) :
    s.applyStores sts = { s with ebuf := (s.applyStores sts).ebuf, fb := (s.applyStores sts).fb } := by
  induction sts generalizing s with
  | nil => rfl
  | cons st sts ih =>
    obtain ⟨sp, off, bs⟩ := st
    have hsts := ih (s := s.applyStore ⟨sp, off, bs⟩) fun st hst => h st (List.mem_cons_of_mem _ hst)
    cases sp with
    | pbuf => exact absurd rfl (h _ List.mem_cons_self)
    | ebuf | fb => exact hsts

/-! ### The grid that the pipelines commit -/

/-- The grid that usable dimension registers give (42_frame_geometry R180). -/
def State.dimGrid (s : State) : Grid := ⟨s.dimCols, s.dimRows, s.dimN, (s.dimN : Int) - 72⟩

section
variable {s : State}

theorem gridCompute_eq_dimGrid (h : s.dimsUsable) : gridCompute params s = .ok s.dimGrid := by
  rw [gridCompute_of_dimsUsable h, State.dimGrid, Int.sub_sub]
  rfl

/-- `TravSet(i)` on a newly committed grid (42_frame_geometry R183, R184). -/
theorem travSet_commitGrid (h : s.dimsUsable) (hcols : 0 < s.dimCols) {i : Nat} (hi : i ≤ s.dimN) :
    (s.commitGrid s.dimGrid).travSet i =
      { s.commitGrid s.dimGrid with
        travIdx := BitVec.ofNat 32 i
        travX   := BitVec.ofNat 16 (i % s.dimCols)
        travY   := BitVec.ofNat 16 (i / s.dimCols) } := by
  have hg := gridCompute_eq_dimGrid h
  obtain ⟨hc, -, hn, -⟩ : _ ∧ _ ∧ (s.commitGrid s.dimGrid).gridN.toNat = s.dimN ∧ _ := commitGrid_toNat (by decide) hg
  rw [travSet_eq_div_mod (gridOk_commitGrid (by decide) hg) (hc ▸ hcols) (hn ▸ hi), hc]
  rfl

/-- At index `N` of a newly committed grid the traversal is at the end position (42_frame_geometry R183, R184). -/
theorem travSet_commitGrid_end (h : s.dimsUsable) : (s.commitGrid s.dimGrid).travSet s.dimN =
      { s.commitGrid s.dimGrid with
        travIdx := BitVec.ofNat 32 s.dimN
        travX   := 0
        travY   := BitVec.ofNat 16 s.dimRows } := by
  obtain ⟨-, -, hn, -⟩ : _ ∧ _ ∧ (s.commitGrid s.dimGrid).gridN.toNat = s.dimN ∧ _ :=
    commitGrid_toNat (by decide) (gridCompute_eq_dimGrid h)
  simp only [State.travSet, hn, lt_irrefl, if_false]
  rfl

/-! ### FRAME_ENCODE -/

/-- The registers of FRAME_ENCODE for `k` stream bytes (44_frame_pipelines R262). -/
def State.commitEncoded (k : Nat) (s : State) : State :=
  { (s.commitGrid s.dimGrid).travSet (8 + (k + min k 64)) with
    payloadLen := BitVec.ofNat 32 k
    envLen     := BitVec.ofNat 32 (8 + (k + min k 64))
    dataLen    := BitVec.ofNat 32 (k + min k 64)
    dataNsym   := BitVec.ofNat 8 (min k 64) }

/-- The number of stream bytes that FRAME_ENCODE takes (44_frame_pipelines R260). -/
def State.takenLen (s : State) : Nat := min s.streamLen.toNat (s.dimN - 72)

/-- The envelope of the stream bytes that FRAME_ENCODE takes. -/
def State.streamEnvelope (s : State) : List Byte := envelopeOf (s.loadBytes .pbuf 0 s.takenLen)

theorem streamEnvelope_length : s.streamEnvelope.length = 8 + (s.takenLen + min s.takenLen 64) := by
  rw [State.streamEnvelope, envelopeOf_length, loadBytes_length, Nat.add_assoc]

/-- The envelope of what FRAME_ENCODE takes fits the grid (43_fec_codec R248). -/
theorem streamEnvelope_length_le (hn : 72 < s.dimN) : s.streamEnvelope.length ≤ s.dimN := by
  have hk : s.takenLen ≤ s.dimN - 72 := Nat.min_le_right _ _
  rw [streamEnvelope_length]
  omega

/-- FRAME_ENCODE's checks past the grid's, with the default sizes (44_frame_pipelines R260). -/
theorem cmdFrameEncode_of_dimsUsable (h : s.dimsUsable) : cmdFrameEncode params s =
    if 2073600 < s.streamLen.toNat then .raise s .badLength
    else if s.streamLen.toNat = 0 then .raise s .inputEmpty
    else if s.dimN ≤ 72 then .raise s .noRoom
    else .ok (s.commitEncoded s.takenLen)
      (renderStores s s.dimCols s.streamEnvelope ++ [⟨.ebuf, 0, s.streamEnvelope⟩]) := by
  have hmax : params.pbufBytes = 2073600 := rfl
  have hcap : s.dimGrid.cap ≤ 0 ↔ s.dimN ≤ 72 := by
    simp only [State.dimGrid]
    omega
  have htaken : min s.streamLen.toNat s.dimGrid.cap.toNat = s.takenLen := by
    simp only [State.dimGrid, State.takenLen]
    omega
  simp only [cmdFrameEncode, gridCompute_eq_dimGrid h, hmax, hcap, htaken]
  split_ifs with hlong hzero hroom
  · rfl
  · rfl
  · rfl
  · have hlen := streamEnvelope_length_le (not_le.1 hroom)
    rw [streamEnvelope_length, ← Nat.add_assoc] at hlen
    rw [show s.dimGrid.n = s.dimN from rfl, buildEnvelope_of_fits (by rwa [loadBytes_length])]
    simp only [loadBytes_length]
    rw [← State.streamEnvelope, streamEnvelope_length]
    rfl

/-- FRAME_ENCODE with its checks passed (44_frame_pipelines R262). -/
theorem commandResult_frameEncode (h : s.dimsUsable) (hpos : 0 < s.streamLen.toNat)
    (hlen : s.streamLen.toNat ≤ 2073600) (hn : 72 < s.dimN) :
    commandResult params .frameEncode s = .ok (s.commitEncoded s.takenLen)
      (renderStores s s.dimCols s.streamEnvelope ++ [⟨.ebuf, 0, s.streamEnvelope⟩]) := by
  rw [commandResult, cmdFrameEncode_of_dimsUsable h, if_neg hlen.not_gt, if_neg hpos.ne', if_neg hn.not_ge]

end

/-- Settles O40: check by check, then the rendered frame pixel by pixel. -/
theorem frameEncodeRendersEnvelope : Obligations.FrameEncodeRendersEnvelope := by
  refine ⟨rfl, fun s e he => exec_of_gridCompute_error he (by simp), fun s h => ⟨fun hlong => ?_, fun hzero => ?_,
    fun hpos hlen hroom => ?_⟩, fun s h hpos hlen hn => ?_⟩
  · exact exec_of_raise (i := .frameEncode) (e := .badLength) ((cmdFrameEncode_of_dimsUsable h).trans (if_pos hlong))
  · refine exec_of_raise (i := .frameEncode) (e := .inputEmpty) ((cmdFrameEncode_of_dimsUsable h).trans ?_)
    rw [if_neg (by omega), if_pos hzero]
  · refine exec_of_raise (i := .frameEncode) (e := .noRoom) ((cmdFrameEncode_of_dimsUsable h).trans ?_)
    rw [if_neg hlen.not_gt, if_neg hpos.ne', if_pos hroom]
  intro k l env
  have hresult := commandResult_frameEncode h hpos hlen hn
  have henv : env.length = 8 + l := streamEnvelope_length
  have hfits : env.length ≤ s.dimN := streamEnvelope_length_le hn
  have hload (sp : Space) (a : Nat) : (commandResult params .frameEncode s).finish.loadByte sp a =
      if sp = .ebuf ∧ a < 8 + l then env.getD a 0
      else (s.applyStores (renderStores s s.dimCols env)).loadByte sp a := by
    rw [(commandResult_effect _ _ _).loadByte_finish, hresult, ← henv, ← State.loadByte_applyStore_zero]
    exact congrArg (State.loadByte · sp a) (applyStores_append _ _ _)
  refine ⟨_, exec_eq_finish _ _, ?_, fun a => ?_, fun a => ?_, fun px py c hpx hpy hc => ?_, fun a ha => ?_⟩
  · rw [hresult, finish_ok, applyStores_eq_of_ne_pbuf fun st hst => ?_, State.commitEncoded,
      travSet_commitGrid h (dimCols_pos hn) (henv ▸ hfits)]
    · rfl
    · obtain hst | hst := List.mem_append.1 hst
      · simp [renderStores_space hst]
      · simp [List.mem_singleton.1 hst]
  · rw [hload, loadByte_applyStores_renderStores_of_outside h hfits (.inl (by decide))]
    simp
  · rw [hload, loadByte_applyStores_renderStores_of_outside h hfits (.inl (by decide))]
    simp
  · rw [hload, if_neg (by simp), loadByte_applyStores_renderStores h hpx hpy hc hfits, henv]
    refine if_congr (and_congr_right fun _ => ⟨fun hi => ⟨?_, hi⟩, And.right⟩) rfl rfl
    exact blockRow_lt_dimRows (hi.trans_le (henv ▸ hfits))
  · rw [hload, if_neg (by simp), loadByte_applyStores_renderStores_of_outside h hfits (.inr ha)]

/-! ### FRAME_DECODE -/

section
variable {s : State}

/-- The scan of the grid that usable dimension registers give (44_frame_pipelines R264). -/
def State.gridScan (s : State) : List Byte := scan params s s.dimCols s.dimN

@[simp] theorem gridScan_length : s.gridScan.length = s.dimN := scan_length _ _ _ _

/-- The registers of FRAME_DECODE's scan commit (44_frame_pipelines R265). -/
def State.commitScan (s : State) : State := (s.commitGrid s.dimGrid).travSet s.dimN

/-- The scan of a usable grid fits `EBUF` (44_frame_pipelines R265). -/
theorem inSpace_dimGrid (h : s.dimsUsable) : inSpace params .ebuf 0 s.dimGrid.n = true :=
  decide_eq_true (by rw [Nat.zero_add]; exact dimN_le h)

/-- FRAME_DECODE whose parse fails keeps its scan commit (44_frame_pipelines R265). -/
theorem commandResult_frameDecode_of_error (h : s.dimsUsable) {e : CmdError}
    (he : parseEnvelope params s.gridScan = .error e) :
    commandResult params .frameDecode s = ⟨s.commitScan, [⟨.ebuf, 0, s.gridScan⟩], some e⟩ := by
  have hparse : parseEnvelope params (scan params s s.dimGrid.cols s.dimGrid.n) = .error e := he
  simp only [commandResult, cmdFrameDecode, gridCompute_eq_dimGrid h, inSpace_dimGrid h, hparse]
  rfl

/-- FRAME_DECODE whose parse succeeds writes the payload and its registers too (44_frame_pipelines R265). -/
theorem commandResult_frameDecode_of_ok (h : s.dimsUsable) {q : Parsed} (hq : parseEnvelope params s.gridScan = .ok q) :
    commandResult params .frameDecode s =
      .ok (s.commitScan.commitParsed q) [⟨.ebuf, 0, s.gridScan⟩, ⟨.pbuf, 0, q.payload⟩] := by
  have hparse : parseEnvelope params (scan params s s.dimGrid.cols s.dimGrid.n) = .ok q := hq
  simp only [commandResult, cmdFrameDecode, gridCompute_eq_dimGrid h, inSpace_dimGrid h, hparse]
  rfl

end

/-- Settles O41, by the outcome of the parse. -/
theorem frameDecodeCommitsScan : Obligations.FrameDecodeCommitsScan := by
  refine ⟨rfl, fun s => ⟨fun e he => exec_of_gridCompute_error he (by simp), fun h => ?_⟩⟩
  intro raw
  have hraw : raw = s.gridScan := rfl
  clear_value raw
  subst hraw
  have hload := (commandResult_effect params s .frameDecode).loadByte_finish
  refine ⟨_, exec_eq_finish _ _, fun e he => ?_, fun q hq => ?_⟩
  · have hresult := commandResult_frameDecode_of_error h he
    refine ⟨?_, fun sp a => ?_⟩
    · rw [hresult, State.commitScan, travSet_commitGrid_end h]
      rfl
    · rw [hload, hresult, applyStores_cons, applyStores_nil, State.loadByte_applyStore_zero, gridScan_length]
  · have hresult := commandResult_frameDecode_of_ok h hq
    refine ⟨?_, fun sp a => ?_⟩
    · rw [hresult, State.commitScan, travSet_commitGrid_end h]
      rfl
    · rw [hload, hresult, CmdResult.ok, applyStores_cons, applyStores_cons, applyStores_nil,
        State.loadByte_applyStore_zero, State.loadByte_applyStore_zero, gridScan_length]
      cases sp <;> simp

/-! ### The round trip -/

/-- The envelope that FRAME_ENCODE renders, with anything after it, parses back to the stream bytes taken. -/
theorem parseEnvelope_streamEnvelope {s : State} (hlen : s.streamLen.toNat ≤ 2073600) (rest : List Byte) :
    parseEnvelope params (s.streamEnvelope ++ rest) =
      .ok ⟨s.loadBytes .pbuf 0 s.takenLen, s.takenLen + min s.takenLen 64, min s.takenLen 64, 0, 0⟩ := by
  have hk : s.takenLen ≤ s.streamLen.toNat := Nat.min_le_left _ _
  have hparse := envelopeRoundTrip (s.loadBytes .pbuf 0 s.takenLen) rest (by rw [loadBytes_length]; omega)
  rwa [loadBytes_length] at hparse

/-- Settles O42: the scan of the rendered frame is the envelope, padded with the background's byte, and parses back. -/
theorem frameRoundTrip : Obligations.FrameRoundTrip := by
  intro s h hpos hlen hn
  obtain ⟨-, -, -, hencode⟩ := frameEncodeRendersEnvelope
  obtain ⟨t, ht, htregs, htebuf, htpbuf, htfb, -⟩ := hencode s h hpos hlen hn
  have henv : s.streamEnvelope.length = 8 + (s.takenLen + min s.takenLen 64) := streamEnvelope_length
  have hfits := streamEnvelope_length_le hn
  have hdims : s.SameDims t := by rw [htregs]; exact ⟨rfl, rfl, rfl, rfl⟩
  have hshows : s.FrameShows t s.streamEnvelope s.bgRgb := fun px py c hpx hpy hc hcol hindex => by
    rw [henv, htfb px py c hpx hpy hc, apply_ite (rgbChannel · c)]
    exact if_congr ⟨fun ⟨_, _, hi⟩ => hi, fun hi => ⟨hcol, blockRow_lt_dimRows hindex, hi⟩⟩ rfl rfl
  have hscan : t.gridScan = s.streamEnvelope ++
      List.replicate (s.dimN - s.streamEnvelope.length) (decodeColor s.bgRgb) :=
    hdims.dimN ▸ scan_of_frameShows params (hdims.dimsUsable h) (hdims.dimN ▸ hfits)
      ((hdims.frameShows_iff _ _ _).2 hshows)
  have hparse := hscan ▸ parseEnvelope_streamEnvelope hlen _
  obtain ⟨-, hdecode⟩ := frameDecodeCommitsScan
  obtain ⟨-, hcommit⟩ := hdecode t
  obtain ⟨u, hu, -, hok⟩ := hcommit (hdims.dimsUsable h)
  obtain ⟨huregs, huload⟩ := hok _ hparse
  have htaken : s.takenLen ≤ 2073600 := (Nat.min_le_left _ _).trans hlen
  have htenv : t.envLen.toNat = s.streamEnvelope.length := by
    rw [htregs, henv]
    exact Nat.mod_eq_of_lt (by omega)
  refine ⟨t, u, ht, hu, ?_, ?_, ?_, ?_, ?_, ?_, ?_, fun a => ?_, fun a => ?_⟩
  · rw [huregs, htregs]
    rfl
  · rw [huregs, loadBytes_length]
    exact Nat.mod_eq_of_lt (by omega : s.takenLen < 2 ^ 32)
  · rw [huregs, htregs]
    rfl
  · rw [huregs, htregs]
    rfl
  · rw [huregs]
    rfl
  · rw [huregs]
    rfl
  · rw [huregs]
    exact decide_eq_true le_rfl
  · rw [huload, if_neg (by simp), htpbuf, loadBytes_length]
    split
    case isTrue hlt =>
      rw [List.getD_eq_getElem?_getD, loadBytes_getElem? _ _ _ _ _ hlt.2, Nat.zero_add]
      rfl
    case isFalse => rfl
  · have huebuf : u.loadByte .ebuf a = if a < t.dimN then t.gridScan.getD a 0 else t.loadByte .ebuf a :=
      (huload .ebuf a).trans (if_congr (by simp) rfl (if_neg (by simp)))
    rw [hdims.dimN, hscan] at huebuf
    rw [huebuf, htenv, show t.loadByte .ebuf a = if a < s.streamEnvelope.length then s.streamEnvelope.getD a 0
      else s.loadByte .ebuf a from henv ▸ htebuf a]
    obtain hlt | hge := Nat.lt_or_ge a s.streamEnvelope.length
    · rw [if_pos (hlt.trans_le hfits), List.getD_append _ _ _ _ hlt, if_pos hlt, if_pos hlt]
    · rw [if_neg hge.not_gt, if_neg hge.not_gt]
      refine if_ctx_congr Iff.rfl (fun hin => ?_) fun _ => rfl
      rw [List.getD_append_right _ _ _ _ hge, List.getD_replicate _ (by omega)]

end Sys2Proof.Machine
end

section
/-! The control commands NOP and SOFT_RESET (45_control R290, R291). SOFT_RESET is the reset's register file with two changes
on top, the accepted word in `CMD` and the completion in `STATUS`; each of them shows in its own register only. -/

namespace Sys2Proof.Machine

open Config (params)

/-! ### NOP -/

/-- Settles O6: NOP's rule leaves the state as it is, with no store, so only the completion is left. -/
theorem nopOnlyCompletes : Obligations.NopOnlyCompletes := by
  refine ⟨rfl, fun s => ?_⟩
  rw [exec_eq_finish]
  simp only [commandResult, cmdNop, finish_ok, applyStores_nil]

/-! ### SOFT_RESET -/

/-- The completion shows in `STATUS` only (10_state R62). -/
theorem readReg_completed_of_ne (P : Params) (s : State) {r : Reg} (hne : r ≠ .status) :
    readReg P s.completed r = readReg P s r := by
  cases r with
  | status => exact absurd rfl hne
  | _ => rfl

/-- The last accepted word shows in `CMD` only (10_state R61). -/
theorem readReg_cmd_of_ne (P : Params) (s : State) (w : Word) {r : Reg} (hne : r ≠ .cmd) :
    readReg P { s with cmd := w } r = readReg P s r := by
  cases r with
  | cmd => exact absurd rfl hne
  | _ => rfl

theorem resetRegs_regsReset (s : State) : (s.resetRegs params).RegsReset := rfl

/-- A completion after the reset: `DONE`, and `TRAV_DONE` of the empty grid (10_state R33, R42). -/
theorem readReg_reset_completed_status : readReg params State.reset.completed .status = 0x00000022#32 := by decide

theorem exec_softReset_eq (s : State) :
    exec .softReset s = .next { s.resetRegs params with cmd := 0x000000FF#32 }.completed := by
  rw [exec_eq_finish]
  simp only [commandResult, cmdSoftReset, finish_ok, applyStores_nil]

/-- Settles O7. A register other than `CMD` and `STATUS` sees neither change, so it reads what the reset leaves in it; the
buffers are the ones that the reset of the registers keeps. -/
theorem softResetRestoresRegisters : Obligations.SoftResetRestoresRegisters := by
  refine ⟨rfl, fun s => ⟨_, exec_softReset_eq s, fun x hx hcmd hstatus => ?_, rfl, readReg_reset_completed_status,
    rfl, rfl, rfl, rfl, rfl, rfl, fun sp a => ?_⟩⟩
  · rw [readReg_completed_of_ne _ _ hstatus, readReg_cmd_of_ne _ _ _ hcmd, (resetRegs_regsReset s).readReg_eq,
      readReg_reset x hx]
  · rw [← complete_none_eq, complete_loadByte, ← resetRegs_loadByte s params]
    exact State.loadByte_congr sp a (by cases sp <;> rfl) rfl

end Sys2Proof.Machine
end

section
/-! The statements of 60_exceptions: a command that ends in an error (R310) and the interrupt line (R320, R321). -/

namespace Sys2Proof.Machine

open Config (params)

/-! ### Errors -/

section
variable {P : Params} {s : State} {i : Instr} {r : CmdResult}

/-- A command sets `ERR` only by its outcome: no rule sets it before the completion (10_state R62). -/
theorem CommandEffect.exists_outcome_of_err (h : CommandEffect P s i r) (hs : s.err = false)
    (herr : r.finish.err = true) : ∃ e, r.outcome = some e := by
  cases houtcome : r.outcome with
  | some e => exact ⟨e, rfl⟩
  | none =>
    have hregs : r.regs.err = true := by simpa [CmdResult.finish, houtcome] using herr
    obtain ⟨hkept, -⟩ | ⟨-, hcleared, -⟩ := h.errRecord
    · exact absurd (hkept.symm.trans hregs) (by simp [hs])
    · exact absurd hregs (by simp [hcleared])

/-- An error writes nothing, but for FRAME_DECODE's scan commit on the grid it has computed (60_exceptions R310). -/
theorem CommandEffect.eq_of_outcome_some (h : CommandEffect P s i r) {e : CmdError} (he : r.outcome = some e) :
    r = .raise s e ∨ (i = .frameDecode ∧ ∃ g, gridCompute P s = .ok g ∧
      r = ⟨(s.commitGrid g).travSet g.n, [⟨.ebuf, 0, scan P s g.cols g.n⟩], some e⟩) := by
  cases h with
  | fails =>
    cases he
    exact .inl rfl
  | frameDecodeScan g _ hg =>
    cases he
    exact .inr ⟨rfl, g, hg, rfl⟩
  | _ => cases he

end

/-- A grid is computed from usable dimension registers only, and has their block count (42_frame_geometry R180). -/
theorem dimsUsable_of_gridCompute {s : State} {g : Grid} (h : gridCompute params s = .ok g) :
    s.dimsUsable ∧ g.n = s.dimN := by
  obtain ⟨hbw, hbh, hw, hh, hmax, rfl⟩ := (gridCompute_eq_ok _ _ _).1 h
  exact ⟨⟨hbw, hbh, hw, hh, hmax⟩, rfl⟩

/-- Settles O43. The command's outcome is the error, so it has written nothing or is FRAME_DECODE's scan commit, whose one
store covers `EBUF[0:N]`. -/
theorem errorsCommitOnlyStatus : Obligations.ErrorsCommitOnlyStatus := by
  intro i s t hs ht herr
  have heffect := commandResult_effect params s i
  cases (exec_eq_finish i s).symm.trans ht
  obtain ⟨e, he⟩ := heffect.exists_outcome_of_err hs herr
  obtain hraise | ⟨rfl, g, hg, hscan⟩ := heffect.eq_of_outcome_some he
  · rw [hraise]
    exact .inl rfl
  · obtain ⟨hdims, hn⟩ := dimsUsable_of_gridCompute hg
    refine .inr ⟨rfl, hdims, ?_, fun sp a houtside => ?_⟩
    · rw [hscan]
      rfl
    · rw [heffect.loadByte_finish, hscan, applyStores_cons, applyStores_nil, State.loadByte_applyStore_zero,
        scan_length, hn, if_neg fun ⟨hsp, ha⟩ => houtside.elim (· hsp) ha.not_ge]

/-! ### The interrupt line -/

section
variable (s : State)

/-- A completion raises the line where `IRQ_EN` is set (60_exceptions R320). -/
@[simp] theorem complete_irq (o : Option CmdError) : (s.complete o).irq = s.irqEn := by
  rw [State.irq, complete_irqEn, complete_done, Bool.and_true]

/-- Acceptance lowers the line (60_exceptions R321). -/
@[simp] theorem accept_irq (w : Word) : (s.accept w).irq = false := by
  rw [State.irq, accept_done, Bool.and_false]

/-- A `STATUS` write lowers the line where it clears `DONE` (60_exceptions R321). -/
@[simp] theorem clearStatus_irq (v : Word) : (s.clearStatus v).irq = (s.irq && !v.getLsbD 1) := by
  rw [State.irq, State.irq, clearStatus_irqEn, clearStatus_done, Bool.and_assoc]

/-- The line does not depend on the events to come. -/
theorem irq_schedule (es : List Event) : ({ s with schedule := es }).irq = s.irq := rfl

end

/-- No command but SOFT_RESET changes `IRQ_EN`, so its completion shows on the line (10_state R62, 60_exceptions R320). -/
theorem CommandEffect.irq_finish {P : Params} {s : State} {i : Instr} {r : CmdResult} (h : CommandEffect P s i r)
    (hi : i ≠ .softReset) : r.finish.irq = s.irqEn := by
  rw [CmdResult.finish, complete_irq, applyStores_irqEn, h.regs_eq hi]

/-- Settles O52, event by event. -/
theorem interruptFollowsDone : Obligations.InterruptFollowsDone := by
  refine fun s es v => ⟨fun i hi hen => ?_, ?_, accept_irq s v, ?_, ?_, ?_⟩
  · exact ⟨_, exec_eq_finish i s, ((commandResult_effect params s i).irq_finish hi).trans hen⟩
  · exact ⟨_, exec_softReset_eq s, rfl⟩
  · refine ⟨_, step_write_status s es _, ?_⟩
    rw [irq_schedule, clearStatus_irq, show (0x00000002#32).getLsbD 1 = true from rfl, Bool.not_true, Bool.and_false]
  · exact ⟨_, step_write_ctrl s es v, rfl⟩
  · obtain ⟨t, hstep, -, -, hirq, -⟩ := hardResetRestoresRegisters s es
    exact ⟨t, hstep, hirq⟩

end Sys2Proof.Machine
end
